-- ==== Sys2Proof/Word.lean ====
section
/-!
DEFINITION. Word.lean: the word types of the LRN-M2 model and their plainest arithmetic.

Registers are 32 bits wide (R15); virtual time, the cycle counter and the sequencer's registers are 64 bits
(R166, R169, R192); a device address is 40 bits (R42). A sparse table is a list of key and value pairs in one
canonical form; the operations on it are in Machine/Sparse.lean.
-/

namespace Sys2Proof

/-- A byte of a memory, an image or a message. -/
abbrev Byte := BitVec 8
/-- A register (R15). -/
abbrev Word := BitVec 32
/-- A 64-bit value: cycle counter, virtual time, sequencer register. -/
abbrev DWord := BitVec 64
/-- A byte string. -/
abbrev Bytes := List Byte
/-- A sparse table: keys strictly rising, no entry equal to the value an unlisted key reads as. -/
abbrev SMap (α : Type) := List (Nat × α)

/-- One bit as a number. -/
def bitNat (b : Bool) : Nat := if b then 1 else 0

/-- Bit `i` of a number. -/
def natBit (n i : Nat) : Bool := n / 2 ^ i % 2 == 1

/-- The field of `w` bits of `n` that begins at bit `lo`. -/
def natField (n lo w : Nat) : Nat := n / 2 ^ lo % 2 ^ w

end Sys2Proof
end

