-- ==== Sys2Proof/Syntax.lean ====
section
/-!
DEFINITION. Syntax.lean: the commands of the LRN-M2 module, one constructor of `Instr` per row of
spec/opcode_table.json, with the operands the rules give the row.

A command is one whole and indivisible step of the module (spec/95_what_each_step_holds.md): an access from a
master, an instruction of a sequencer or of a Boolean processor, an event on a link, a pin or a supply, or the
completion of work the module has in hand. Operands that the outside decides (the outcome of a check on received
bits, a measured value, the bytes host memory returned) stand in the command, because the module does not fix them.
-/

namespace Sys2Proof

/-- The two halves of the module (R1, R11). -/
inductive HalfId where
  | h0
  | h1
  deriving DecidableEq, Repr

/-- The masters of the on-chip networks, in the order of their MASTER numbers (R525). -/
inductive Master where
  | host      -- 0x00 PCIe endpoint
  | seq       -- 0x01 sequencer
  | stw       -- 0x02 steward, its image loader, the march test engine and TAP CTRL_ACCESS
  | txe       -- 0x03 transaction engine
  | afb       -- 0x04 adapter fabric
  | engines   -- 0x05 trigger, capture and playback engines
  | canvas    -- 0x06 canvas encoders
  | asr       -- 0x07 ASR
  | trace     -- 0x08 trace funnel
  | bridge    -- 0x09 half bridge
  | patrol    -- 0x0A HBM patrol and background tester
  | eth       -- 0x0B management Ethernet port and time block
  deriving DecidableEq, Repr

/-- What the check bits of a word or a bridge word show (R91, R117, R136, R238). -/
inductive Ecc where
  | good
  | single
  | double
  deriving DecidableEq, Repr

/-- A failed cell that a march test finds (R244): the physical BP that owns it (64 and 65 the spares) in its cluster, whether
a spare row and a spare column of its store macro remain, and the stretch of the store that its row or column holds. -/
structure MarchFault where
  cluster : BitVec 10
  bp      : BitVec 7
  row     : Bool
  column  : Bool
  addr    : BitVec 42
  len     : Nat
  deriving DecidableEq, Repr

/-- The kinds of engine that a descriptor arms (R290). -/
inductive EngKind where
  | trigger
  | capture
  | playback
  deriving DecidableEq, Repr

/-- Where one BP or one switch executes: the half, whether the position is the first of its sub-schedule (R57,
R121), the step position (R53), the last position of the sub-schedule (R131), and the step-clock count of the step (R66
counts every step of that clock). -/
structure StepAt where
  half  : HalfId
  first : Bool
  pos   : BitVec 12
  last  : BitVec 12
  time  : Nat
  deriving DecidableEq, Repr

/-- The operand fields of a BP instruction word (R52), with the BP that executes it (R12). -/
structure BpWord where
  bp : BitVec 16
  fn : BitVec 8
  a  : BitVec 13
  b  : BitVec 13
  c  : BitVec 13
  d  : BitVec 13
  deriving DecidableEq, Repr

/-- A block as the lanes of a Tilmoyr bundle bring it (R142): its eight slices in order, each with its 2-bit header (01 is 1, 10
is 2) and its 70 payload bits as scrambled. -/
structure WireBlock where
  slices : List (BitVec 2 × BitVec 70)
  deriving DecidableEq, Repr

/-- A time value of the PHC (R487): seconds, nanoseconds and fraction. -/
structure PtpTime where
  sec  : BitVec 48
  ns   : BitVec 32
  frac : BitVec 16
  deriving DecidableEq, Repr

/-- The fields of a PTP message that R491 to R498 use. -/
structure PtpMsg where
  domainNumber : BitVec 8
  majorSdo     : BitVec 4
  version      : BitVec 4
  logInterval  : Int
  clockId      : BitVec 64
  portNumber   : BitVec 16
  sequenceId   : BitVec 16
  deriving DecidableEq, Repr

/-- What ended or began on an internal request whose response is awaited (R521). -/
inductive NocCase where
  | noResponse
  | headerUncorr
  | routeError
  | corrected
  deriving DecidableEq, Repr

/-- A packet that passes a probe point (R519, R524, R526): network, point kind, point, header fields, flits and the
cycles it waited without a credit. -/
structure ProbePkt where
  net   : BitVec 3
  pkind : BitVec 2
  point : BitVec 8
  typ   : BitVec 4
  src   : BitVec 8
  dst   : BitVec 8
  mst   : BitVec 8
  addr  : BitVec 40
  flits : Nat
  wait  : Nat
  deriving DecidableEq, Repr

/-- The states a supply feed's voltage puts it in (R546). -/
inductive FeedEvent where
  | lost
  | good
  | overvoltage
  deriving DecidableEq, Repr

/-- The losses that missing heartbeats are classified as (R367). -/
inductive LossClass where
  | bridgeLost
  | halfLost
  | sidebandLost
  | sidebandBack
  deriving DecidableEq, Repr

/-- The recoverable faults that start a recovery in place (R360, R375 CAUSE). -/
inductive RecoverCause where
  | dataUncorr
  | storeUncorr
  | bridgeData
  deriving DecidableEq, Repr

/-- The tamper sensors (R597). -/
inductive Sensor where
  | volt
  | clk
  | temp
  | lid
  deriving DecidableEq, Repr

/-- A PCIe configuration request (R473, R476, R478): a read of a double word of configuration space, or what a write leaves in the
Command register, the MSI-X capability and the power state. -/
structure CfgReq where
  read      : Option (BitVec 10)
  busMaster : Bool
  msixOn    : Bool
  funcMask  : Bool
  d3hot     : Bool
  deriving DecidableEq, Repr

/-- A frame received on the management Ethernet port (R484): its bytes without FCS, whether the FCS is good, and its
receive time stamp at the cage (R493). -/
structure EthFrame where
  bytes : Bytes
  fcsOk : Bool
  stamp : PtpTime
  deriving DecidableEq, Repr

/-- The commands, in the order of spec/opcode_table.json. -/
inductive Instr where
  -- registers and memories (R17, R42, R235)
  | registerWrite (h : HalfId) (m : Master) (addr : BitVec 40) (data : Bytes)
  | memoryRead (h : HalfId) (m : Master) (addr : BitVec 40) (len : Nat)
  | memoryWrite (h : HalfId) (m : Master) (addr : BitVec 40) (data : Bytes)
  | bitSetAliasWrite (h : HalfId) (m : Master) (addr : BitVec 40) (data : Bytes)
  | bitClearAliasWrite (h : HalfId) (m : Master) (addr : BitVec 40) (data : Bytes)
  -- edge scheduler, BP array, switches (R175, R61, R116)
  | tick (h : HalfId)
  | idleDecision (h : HalfId)
  | bpNop (x : StepAt) (bp : BitVec 16)
  | eval (x : StepAt) (w : BpWord)
  | evalc (x : StepAt) (w : BpWord)
  | trig (x : StepAt) (w : BpWord)
  | bpAssert (x : StepAt) (w : BpWord)
  | switchInstruction (x : StepAt) (tile : BitVec 6)
  | stallPointRelease (h : HalfId) (n : Nat)
  | eccWriteBack (h : HalfId) (tile : BitVec 6)
  | bridgeReceive (h : HalfId) (tile : BitVec 6) (e : Ecc)
  | bridgeTraining
  | bridgeDown
  | bpaStatusWrite (h : HalfId) (m : Master) (tile : BitVec 6) (v : Word)
  | xchFaultStatusWrite (h : HalfId) (m : Master) (v : Word)
  | xchBrgStatusWrite (h : HalfId) (m : Master) (v : Word)
  -- Tilmoyr link (R149 to R158, R276)
  | bundleEnable (h : HalfId) (m : Master) (b : BitVec 4) (v : Word)
  | bundleLock (h : HalfId) (b : BitVec 4) (past : List (BitVec 58))
  | bundleAlign (h : HalfId) (b : BitVec 4)
  | bundleMeasureDone (h : HalfId) (b : BitVec 4)
  | bundleTimeout (h : HalfId) (b : BitVec 4)
  | bundleLaneLoss (h : HalfId) (b : BitVec 4) (lanes : BitVec 8)
  | bundleDownTimer (h : HalfId) (b : BitVec 4)
  | trainBlock (h : HalfId) (b : BitVec 4) (w : WireBlock)
  | runBlock (h : HalfId) (b : BitVec 4) (q : BitVec 48) (w : WireBlock)
  | startBlock (h : HalfId) (b : BitVec 4) (w : WireBlock)
  | abortBlock (h : HalfId) (b : BitVec 4) (w : WireBlock)
  | dataPacket (h : HalfId) (b : BitVec 4) (chan : BitVec 8) (pseq : BitVec 16) (payload : Bytes)
  | ackPacket (h : HalfId) (b : BitVec 4) (ackseq : BitVec 16)
  | nakPacket (h : HalfId) (b : BitVec 4) (ackseq : BitVec 16)
  | creditPacket (h : HalfId) (b : BitVec 4) (chan : BitVec 8) (granted : Word)
  | creditRefresh (h : HalfId) (b : BitVec 4)
  | linkedStart (h : HalfId)
  | linkedStallEval (h : HalfId)
  -- sequencer instructions (R196)
  | nop (h : HalfId)
  | add (h : HalfId) (wd wa wb : BitVec 5)
  | sub (h : HalfId) (wd wa wb : BitVec 5)
  | and (h : HalfId) (wd wa wb : BitVec 5)
  | or (h : HalfId) (wd wa wb : BitVec 5)
  | xor (h : HalfId) (wd wa wb : BitVec 5)
  | shl (h : HalfId) (wd wa wb : BitVec 5)
  | shr (h : HalfId) (wd wa wb : BitVec 5)
  | sra (h : HalfId) (wd wa wb : BitVec 5)
  | clt (h : HalfId) (wd wa wb : BitVec 5)
  | cltu (h : HalfId) (wd wa wb : BitVec 5)
  | mul (h : HalfId) (wd wa wb : BitVec 5)
  | addi (h : HalfId) (wd wa : BitVec 5) (imm : BitVec 16)
  | andi (h : HalfId) (wd wa : BitVec 5) (imm : BitVec 16)
  | ori (h : HalfId) (wd wa : BitVec 5) (imm : BitVec 16)
  | xori (h : HalfId) (wd wa : BitVec 5) (imm : BitVec 16)
  | shli (h : HalfId) (wd wa : BitVec 5) (imm : BitVec 16)
  | shri (h : HalfId) (wd wa : BitVec 5) (imm : BitVec 16)
  | uppi (h : HalfId) (wd : BitVec 5) (imm : BitVec 16)
  | ld (h : HalfId) (wd wa : BitVec 5) (imm : BitVec 16)
  | st (h : HalfId) (wd wa : BitVec 5) (imm : BitVec 16)
  | rdc (h : HalfId) (wd wa : BitVec 5) (imm : BitVec 16)
  | wrc (h : HalfId) (wd wa : BitVec 5) (imm : BitVec 16)
  | rdt (h : HalfId) (wd : BitVec 5) (imm : BitVec 16)
  | domen (h : HalfId) (wd : BitVec 5) (imm : BitVec 16)
  | halt (h : HalfId)
  | beq (h : HalfId) (wd wa : BitVec 5) (imm : BitVec 16)
  | bne (h : HalfId) (wd wa : BitVec 5) (imm : BitVec 16)
  | blt (h : HalfId) (wd wa : BitVec 5) (imm : BitVec 16)
  | bge (h : HalfId) (wd wa : BitVec 5) (imm : BitVec 16)
  | bltu (h : HalfId) (wd wa : BitVec 5) (imm : BitVec 16)
  | bgeu (h : HalfId) (wd wa : BitVec 5) (imm : BitVec 16)
  | jmp (h : HalfId) (off : BitVec 21)
  | call (h : HalfId) (wd : BitVec 5) (off : BitVec 21)
  | jmpr (h : HalfId) (wa : BitVec 5)
  | go (h : HalfId) (wd : BitVec 5)
  | runc (h : HalfId) (wd wa : BitVec 5)
  | runt (h : HalfId) (wd wa : BitVec 5)
  | hold (h : HalfId) (wd : BitVec 5)
  | stop (h : HalfId) (wd : BitVec 5)
  | waite (h : HalfId) (wd wa : BitVec 5)
  | waiteTimeout (h : HalfId)
  | restore (h : HalfId) (wd wa : BitVec 5)
  | fallow (h : HalfId) (wd : BitVec 5)
  | even (h : HalfId) (imm : BitVec 16)
  | evdis (h : HalfId) (imm : BitVec 16)
  | evclr (h : HalfId) (imm : BitVec 16)
  | evact (h : HalfId) (imm : BitVec 16)
  | arm (h : HalfId) (wd wa : BitVec 5) (imm : BitVec 16)
  | abrt (h : HalfId) (wd : BitVec 5) (imm : BitVec 16)
  | ckpt (h : HalfId) (wd : BitVec 5) (imm : BitVec 16)
  | sig (h : HalfId) (wa : BitVec 5) (imm : BitVec 16)
  -- sequencer and edge-scheduler registers (R190, R204, R207, R211, R214)
  | doorbell (h : HalfId) (m : Master)
  | stopReq (h : HalfId) (m : Master)
  | releaseReq (h : HalfId) (m : Master)
  | holdReq (h : HalfId) (m : Master)
  | seqCtrlHalt (h : HalfId) (m : Master)
  | seqExec (h : HalfId) (m : Master)
  | seqFaultClear (h : HalfId) (m : Master) (v : Word)
  | seqTimerExpiry (h : HalfId)
  | edgDescWrite (h : HalfId) (m : Master) (slot : BitVec 7) (word : BitVec 3) (v : Word)
  | extEdgeEvent (h : HalfId) (dom : BitVec 8) (falling : Bool)
  -- design memories (R221 to R250)
  | bankAccess (h : HalfId)
  | bankReadReturn (h : HalfId)
  | hbmReadReturn (h : HalfId) (tile : BitVec 6) (port : BitVec 2)
  | hbmPostedWrite (h : HalfId) (tile : BitVec 6) (port : BitVec 2)
  | hbmPatrol (h : HalfId) (addr : BitVec 40)
  | memErrStatusWrite (h : HalfId) (m : Master) (v : Word)
  | marchStart (h : HalfId) (m : Master) (v : Word)
  | marchAbort (h : HalfId) (m : Master) (found : List MarchFault)
  | marchDone (h : HalfId) (found : List MarchFault)
  | bgtEnable (h : HalfId) (m : Master) (v : Word)
  | bgtRegion (h : HalfId) (failBit : Option (BitVec 40 × BitVec 8))
  -- transaction engine (R260 to R287)
  | sqDoorbell (h : HalfId) (m : Master) (q : BitVec 6) (tail : Word)
  | create (h : HalfId) (q : BitVec 6) (entry : Bytes)
  | fill (h : HalfId) (q : BitVec 6) (entry : Bytes)
  | sqAbort (h : HalfId) (q : BitVec 6) (entry : Bytes)
  | hOperandAccept (h : HalfId) (tid : BitVec 12) (payload : Bytes)
  | dispatch (h : HalfId)
  | transactionComplete (h : HalfId) (tid : BitVec 12)
  | txeTimeout (h : HalfId) (tid : BitVec 12)
  | txeAbort (h : HalfId) (m : Master) (v : Word)
  | cqHeadWrite (h : HalfId) (m : Master) (q : BitVec 6) (v : Word)
  | sqEnable (h : HalfId) (m : Master) (q : BitVec 6) (v : Word)
  | cqEnable (h : HalfId) (m : Master) (q : BitVec 6) (v : Word)
  -- trigger, capture and playback (R291 to R328)
  | engineArm (h : HalfId) (m : Master) (k : EngKind) (e : BitVec 2) (v : Word)
  | armComplete (h : HalfId) (k : EngKind) (e : BitVec 2)
  | engineAbort (h : HalfId) (m : Master) (k : EngKind) (e : BitVec 2) (v : Word)
  | xoAction (h : HalfId) (e : BitVec 2)
  | xoPulseEnd (h : HalfId) (e : BitVec 2)
  | recordDrain (h : HalfId) (c : BitVec 2)
  | hostStreamWrite (h : HalfId) (c : BitVec 2) (ok : Bool)
  | capHsHeadWrite (h : HalfId) (m : Master) (c : BitVec 2) (v : Word)
  | playbackPrefetch (h : HalfId) (p : BitVec 2)
  -- assured operation (R340 to R371)
  | asrEnWrite (h : HalfId) (m : Master) (v : Word)
  | ckptReq (h : HalfId) (m : Master)
  | abortCkpt (h : HalfId) (m : Master)
  | scheduledCheckpoint (h : HalfId)
  | checkpointCopyDone (h : HalfId) (ok : Bool)
  | checkpointCommit (h : HalfId) (ok : Bool)
  | journalConfirm (h : HalfId) (jseq : BitVec 48)
  | signatureCompare (h : HalfId)
  | recovery (h : HalfId) (c : RecoverCause)
  | storeRewriteDone (h : HalfId)
  | restoreDone (h : HalfId) (newReadable oldReadable : Bool)
  | replayEnd (h : HalfId)
  | diagnosis (h : HalfId)
  | diagnosisDone (h : HalfId) (fail0 fail1 : Bool)
  | heartbeat (h : HalfId) (sideband : Bool)
  | heartbeatLoss (h : HalfId) (c : LossClass)
  | takeover (h : HalfId)
  | asrExport (h : HalfId) (m : Master) (partner : Bool)
  | asrImport (h : HalfId) (m : Master)
  | exportDone (h : HalfId)
  | importDone (h : HalfId)
  -- adapter fabric (R388 to R426)
  | fabricLoad (h : HalfId) (m : Master) (v : Word)
  | fabricLoadCommit (h : HalfId)
  | fabricRelease (h : HalfId) (m : Master) (v : Word)
  | fabricReleaseStage (h : HalfId)
  | afbAbort (h : HalfId) (m : Master) (v : Word)
  | longLineContention (h : HalfId) (line : BitVec 6) (sites : BitVec 192)
  | afbLlDisWrite (h : HalfId) (m : Master) (hi : Bool) (v : Word)
  | oscLock (h : HalfId) (k : BitVec 2)
  | trimPortWrite (h : HalfId) (k : BitVec 2) (trim : BitVec 12)
  | flashProgram (h : HalfId) (m : Master)
  | flashErase (h : HalfId) (m : Master)
  | flashRead (h : HalfId) (m : Master)
  | flashCommandDone (h : HalfId)
  | channelPush (h : HalfId) (k : BitVec 5) (bits : BitVec 128)
  | fabricAck (h : HalfId) (c : BitVec 64)
  | outHoldRelease (h : HalfId)
  | fabricDoorbell (h : HalfId) (q : BitVec 6) (tail : BitVec 16)
  | fabricRequest (h : HalfId) (code : BitVec 8)
  | fabricHbmAccess (h : HalfId) (write : Bool) (addr : BitVec 40) (data : Bytes)
  -- pins (R430 to R447)
  | pinFunctionSwitch (h : HalfId) (m : Master) (off : BitVec 16) (v : Word)
  | pinBankVioWrite (h : HalfId) (m : Master) (v : Word)
  | vioSettled (h : HalfId) (bank : BitVec 2)
  | pinDataSet (h : HalfId) (m : Master) (hi : Bool) (v : Word)
  | pinDataClr (h : HalfId) (m : Master) (hi : Bool) (v : Word)
  | pinInputChange (h : HalfId) (pin : BitVec 6) (level : Bool)
  | debounceChange (h : HalfId) (pin : BitVec 6)
  | pinDsnInWrite (h : HalfId) (m : Master) (v : Word)
  -- lanes, PCIe, management Ethernet (R459 to R486)
  | laneEnable (h : HalfId) (m : Master) (l : BitVec 6) (v : Word)
  | cdrLock (h : HalfId) (l : BitVec 6)
  | laneLoss (h : HalfId) (l : BitVec 6) (cdr : Bool)
  | quadRateWrite (h : HalfId) (m : Master) (q : BitVec 4) (v : Word)
  | pllLock (h : HalfId) (q : BitVec 4) (pllB : Bool)
  | hostRequest (h : HalfId) (bar : BitVec 3) (off : BitVec 40) (write : Bool) (len : Nat) (data : Bytes)
  | linkDown (h : HalfId)
  | linkUp (h : HalfId) (speed width : BitVec 4)
  | msixUnmask (h : HalfId) (vec : BitVec 8)
  | hostFault (h : HalfId) (tid : BitVec 12)
  | ethFrameReceive (h : HalfId) (f : EthFrame)
  | ethFrameTransmit (h : HalfId)
  | lnkMeCfgWrite (h : HalfId) (m : Master) (v : Word)
  -- network time (R489 to R513)
  | ptmTimeSecLoRead (h : HalfId) (m : Master)
  | setTime (h : HalfId) (m : Master) (v : Word)
  | servoReset (h : HalfId) (m : Master) (v : Word)
  | announce (h : HalfId) (msg : PtpMsg) (utcOffset : BitVec 16) (clockClass steps : BitVec 8)
  | sync (h : HalfId) (msg : PtpMsg) (twoStep : Bool) (t1 : PtpTime) (correction : Int) (t2 : PtpTime)
  | followUp (h : HalfId) (msg : PtpMsg) (t1 : PtpTime) (correction : Int)
  | delayResp (h : HalfId) (msg : PtpMsg) (logMinDelay : Int) (t4 : PtpTime) (correction : Int)
  | delayReq (h : HalfId) (domB : Bool)
  | masterTimeout (h : HalfId) (domB : Bool)
  | holdoverExpiry (h : HalfId)
  | tpoArm (h : HalfId) (m : Master) (k : BitVec 2) (v : Word)
  | disarm (h : HalfId) (m : Master) (k : BitVec 2)
  | tpoEdge (h : HalfId) (k : BitVec 2)
  | ptmTxtsIdRead (h : HalfId) (m : Master)
  | ptmTcapIdRead (h : HalfId) (m : Master) (k : BitVec 1)
  | ptmDsnWrite (h : HalfId) (m : Master) (v : Word)
  -- networks and trace (R521 to R545)
  | nocTimeout (h : HalfId) (c : NocCase)
  | probeMatch (h : HalfId) (k : BitVec 4) (p : ProbePkt)
  | probeClear (h : HalfId) (m : Master) (k : BitVec 4) (v : Word)
  | traceEnable (h : HalfId) (m : Master) (v : Word)
  | trcGo (h : HalfId) (m : Master)
  | trcRestart (h : HalfId) (m : Master)
  | tracePeriodicSync (h : HalfId)
  | trcStwLogWrite (h : HalfId) (m : Master) (v : Word)
  | trcStwEndWrite (h : HalfId) (m : Master)
  -- supply, clocks, reset (R546 to R573)
  | feedStateChange (h : HalfId) (feedB : Bool) (e : FeedEvent) (tenMv : BitVec 16)
  | powerFail
  | powerFailRelease
  | thermalSample (h : HalfId) (tj : BitVec 16) (powerW : BitVec 16)
  | throttleSwitch (h : HalfId)
  | sourceInvalid (h : HalfId) (src : BitVec 2)
  | holdoverTimeout (h : HalfId)
  | clkRefCfgWrite (h : HalfId) (m : Master) (v : Word)
  | wakeTimer (h : HalfId)
  | fallowExit (h : HalfId)
  | por
  | modRst
  | halfSw (h : HalfId) (m : Master)
  | watchdog (h : HalfId)
  | kick (h : HalfId) (m : Master) (v : Word)
  | perst (h : HalfId)
  | hotReset (h : HalfId)
  | flr (h : HalfId)
  | blockSw (h : HalfId) (m : Master) (v : Word)
  | trst
  | resetRelease (h : HalfId) (src : BitVec 4)
  | releaseStage (h : HalfId) (ok : Bool) (flags : BitVec 8)
  -- steward mailbox (R566, R585)
  | mbxStatus (h : HalfId) (k : BitVec 2)
  | hostEnable (h : HalfId) (k : BitVec 2)
  | loadImage (h : HalfId) (k : BitVec 2)
  | mailboxFallow (h : HalfId) (k : BitVec 2)
  | wake (h : HalfId) (k : BitVec 2)
  | halfReset (h : HalfId) (k : BitVec 2)
  | readStop (h : HalfId) (k : BitVec 2)
  | clearStop (h : HalfId) (k : BitVec 2)
  | getMeas (h : HalfId) (k : BitVec 2)
  | attest (h : HalfId) (k : BitVec 2)
  | getCert (h : HalfId) (k : BitVec 2)
  | extend (h : HalfId) (k : BitVec 2)
  | provision (h : HalfId) (k : BitVec 2)
  | certWrite (h : HalfId) (k : BitVec 2)
  | takeOwnership (h : HalfId) (k : BitVec 2)
  | getNonce (h : HalfId) (k : BitVec 2)
  | ownerAction (h : HalfId) (k : BitVec 2)
  | unlockPwd (h : HalfId) (k : BitVec 2)
  | debugClose (h : HalfId) (k : BitVec 2)
  | scrap (h : HalfId) (k : BitVec 2)
  | fwStage (h : HalfId) (k : BitVec 2)
  -- SPDM responder (R583)
  | getVersion (h : HalfId)
  | getCapabilities (h : HalfId)
  | negotiateAlgorithms (h : HalfId)
  | getDigests (h : HalfId)
  | getCertificate (h : HalfId) (slot : BitVec 8) (off len : BitVec 16)
  | challenge (h : HalfId) (slot : BitVec 8) (nonce : Bytes)
  | getMeasurements (h : HalfId) (index : BitVec 8) (nonce : Bytes)
  -- TAP (R593)
  | extest (h : HalfId) (drive enable : BitVec 64)
  | samplePreload (h : HalfId) (preload : BitVec 64)
  | idcode (h : HalfId)
  | flashProg (h : HalfId) (write : Bool) (addr : BitVec 32) (data : Bytes)
  | ctrlAccess (h : HalfId) (write : Bool) (addr : BitVec 40) (v : Word)
  | stwHalt (h : HalfId) (halted : Bool)
  | bypass (h : HalfId)
  -- tamper, timers and later rows
  | tamperTrip (h : HalfId) (sensors : List Sensor)
  | lockoutExpiry (h : HalfId)
  | nonceExpiry (h : HalfId)
  | secLock (h : HalfId) (m : Master) (v : Word)
  | idleBlock (h : HalfId) (b : BitVec 4) (w : WireBlock)
  | linkChg (h : HalfId) (blockLock hiBer : Bool)
  | laneSync (h : HalfId) (l : BitVec 6)
  | configurationRequest (h : HalfId) (c : CfgReq)
  | sourceValid (h : HalfId) (src : BitVec 2)
  | rootPllLock (h : HalfId)
  | stopRecordDone
  | imageLoadDone (h : HalfId)
  | domainNotValid (h : HalfId) (domB : Bool)
  | revert (h : HalfId)
  deriving DecidableEq, Repr

end Sys2Proof
end

