-- ==== Sys2Proof/Decode.lean ====
section
/-!
DEFINITION. Decode.lean: the words that spell commands.

The table of commands gives none of its rows any bits, so that no word of the table's spells a command. The one
instruction set whose words the module fetches is the sequencer's (R195, R196, R602): `seqDecode` reads its words, and
`seqEncode` writes them.
-/

namespace Sys2Proof

/-- The command that a word spells by the table's bits: no row has any. -/
def decodeTableWord (_nbits _w : Nat) : Option Instr := none

/-! ## Words of the sequencer (R195, R196, R602) -/

/-- OP, bits [5:0]. -/
def seqOpField (w : Word) : Nat := w.toNat % 64
/-- WD, bits [10:6]. -/
def seqWd (w : Word) : BitVec 5 := w.extractLsb' 6 5
/-- WA, bits [15:11]. -/
def seqWa (w : Word) : BitVec 5 := w.extractLsb' 11 5
/-- WB, bits [20:16]. -/
def seqWb (w : Word) : BitVec 5 := w.extractLsb' 16 5
/-- IMM, bits [31:16]. -/
def seqImm (w : Word) : BitVec 16 := w.extractLsb' 16 16
/-- OFF, bits [31:11]. -/
def seqOff (w : Word) : BitVec 21 := w.extractLsb' 11 21

/-- The instruction of the sequencer of half `h` that a word spells (R196); none for a reserved OP. A field the
instruction does not use is ignored (R196, R602): of an immediate, the bits it does not use read as 0. -/
def seqDecode (h : HalfId) (w : Word) : Option Instr :=
  let d := seqWd w
  let a := seqWa w
  let b := seqWb w
  let i := seqImm w
  match seqOpField w with
  | 0x00 => some (.nop h)
  | 0x01 => some (.add h d a b)
  | 0x02 => some (.sub h d a b)
  | 0x03 => some (.and h d a b)
  | 0x04 => some (.or h d a b)
  | 0x05 => some (.xor h d a b)
  | 0x06 => some (.shl h d a b)
  | 0x07 => some (.shr h d a b)
  | 0x08 => some (.sra h d a b)
  | 0x09 => some (.clt h d a b)
  | 0x0A => some (.cltu h d a b)
  | 0x0B => some (.mul h d a b)
  | 0x10 => some (.addi h d a i)
  | 0x11 => some (.andi h d a i)
  | 0x12 => some (.ori h d a i)
  | 0x13 => some (.xori h d a i)
  | 0x14 => some (.shli h d a (i &&& 0x003F#16))
  | 0x15 => some (.shri h d a (i &&& 0x003F#16))
  | 0x16 => some (.uppi h d i)
  | 0x18 => some (.ld h d a i)
  | 0x19 => some (.st h d a i)
  | 0x1A => some (.rdc h d a i)
  | 0x1B => some (.wrc h d a i)
  | 0x1C => some (.rdt h d (i &&& 0x000F#16))
  | 0x1D => some (.domen h d (i &&& 0x01FF#16))
  | 0x1E => some (.halt h)
  | 0x20 => some (.beq h d a i)
  | 0x21 => some (.bne h d a i)
  | 0x22 => some (.blt h d a i)
  | 0x23 => some (.bge h d a i)
  | 0x24 => some (.bltu h d a i)
  | 0x25 => some (.bgeu h d a i)
  | 0x26 => some (.jmp h (seqOff w))
  | 0x27 => some (.call h d (seqOff w))
  | 0x28 => some (.jmpr h a)
  | 0x30 => some (.go h d)
  | 0x31 => some (.runc h d a)
  | 0x32 => some (.runt h d a)
  | 0x33 => some (.hold h d)
  | 0x34 => some (.stop h d)
  | 0x35 => some (.waite h d a)
  | 0x36 => some (.restore h d a)
  | 0x37 => some (.fallow h d)
  | 0x38 => some (.even h (i &&& 0x01FF#16))
  | 0x39 => some (.evdis h (i &&& 0x01FF#16))
  | 0x3A => some (.evclr h (i &&& 0x01FF#16))
  | 0x3B => some (.evact h (i &&& 0x07FF#16))
  | 0x3C => some (.arm h d a (i &&& 0x00FF#16))
  | 0x3D => some (.abrt h d (i &&& 0x00FF#16))
  | 0x3E => some (.ckpt h d (i &&& 0x0001#16))
  | 0x3F => some (.sig h a (i &&& 0x00FF#16))
  | _ => none

/-- A word of format R (R195). -/
def seqR (op : BitVec 6) (d a b : BitVec 5) : Word := (0#11 ++ b) ++ (a ++ (d ++ op))
/-- A word of format I. -/
def seqI (op : BitVec 6) (d a : BitVec 5) (i : BitVec 16) : Word := i ++ (a ++ (d ++ op))
/-- A word of format L. -/
def seqL (op : BitVec 6) (d : BitVec 5) (o : BitVec 21) : Word := o ++ (d ++ op)

/-- The word of an instruction of the sequencer, its unused fields 0 (R196, R602); none for any other command. -/
def seqEncode : Instr → Option Word
  | .nop _ => some (seqR 0x00 0 0 0)
  | .add _ d a b => some (seqR 0x01 d a b)
  | .sub _ d a b => some (seqR 0x02 d a b)
  | .and _ d a b => some (seqR 0x03 d a b)
  | .or _ d a b => some (seqR 0x04 d a b)
  | .xor _ d a b => some (seqR 0x05 d a b)
  | .shl _ d a b => some (seqR 0x06 d a b)
  | .shr _ d a b => some (seqR 0x07 d a b)
  | .sra _ d a b => some (seqR 0x08 d a b)
  | .clt _ d a b => some (seqR 0x09 d a b)
  | .cltu _ d a b => some (seqR 0x0A d a b)
  | .mul _ d a b => some (seqR 0x0B d a b)
  | .addi _ d a i => some (seqI 0x10 d a i)
  | .andi _ d a i => some (seqI 0x11 d a i)
  | .ori _ d a i => some (seqI 0x12 d a i)
  | .xori _ d a i => some (seqI 0x13 d a i)
  | .shli _ d a i => some (seqI 0x14 d a i)
  | .shri _ d a i => some (seqI 0x15 d a i)
  | .uppi _ d i => some (seqI 0x16 d 0 i)
  | .ld _ d a i => some (seqI 0x18 d a i)
  | .st _ d a i => some (seqI 0x19 d a i)
  | .rdc _ d a i => some (seqI 0x1A d a i)
  | .wrc _ d a i => some (seqI 0x1B d a i)
  | .rdt _ d i => some (seqI 0x1C d 0 i)
  | .domen _ d i => some (seqI 0x1D d 0 i)
  | .halt _ => some (seqR 0x1E 0 0 0)
  | .beq _ d a i => some (seqI 0x20 d a i)
  | .bne _ d a i => some (seqI 0x21 d a i)
  | .blt _ d a i => some (seqI 0x22 d a i)
  | .bge _ d a i => some (seqI 0x23 d a i)
  | .bltu _ d a i => some (seqI 0x24 d a i)
  | .bgeu _ d a i => some (seqI 0x25 d a i)
  | .jmp _ o => some (seqL 0x26 0 o)
  | .call _ d o => some (seqL 0x27 d o)
  | .jmpr _ a => some (seqI 0x28 0 a 0)
  | .go _ d => some (seqR 0x30 d 0 0)
  | .runc _ d a => some (seqR 0x31 d a 0)
  | .runt _ d a => some (seqR 0x32 d a 0)
  | .hold _ d => some (seqR 0x33 d 0 0)
  | .stop _ d => some (seqR 0x34 d 0 0)
  | .waite _ d a => some (seqR 0x35 d a 0)
  | .restore _ d a => some (seqR 0x36 d a 0)
  | .fallow _ d => some (seqR 0x37 d 0 0)
  | .even _ i => some (seqI 0x38 0 0 i)
  | .evdis _ i => some (seqI 0x39 0 0 i)
  | .evclr _ i => some (seqI 0x3A 0 0 i)
  | .evact _ i => some (seqI 0x3B 0 0 i)
  | .arm _ d a i => some (seqI 0x3C d a i)
  | .abrt _ d i => some (seqI 0x3D d 0 i)
  | .ckpt _ d i => some (seqI 0x3E d 0 i)
  | .sig _ a i => some (seqI 0x3F 0 a i)
  | _ => none

end Sys2Proof
end

