-- ==== Sys2Proof/Machine/Netlist.lean ====
section
/-!
DEFINITION. Machine/Netlist.lean: what the LOGIC, ROUTE, RAM_INIT, IO, CLOCK and HARD frames of a configuration say, once the
device database that DB_ID names has read them (R382 to R387, R394, R403). The bit assignment is the database's;
`Config.netlist` stands for it.
-/

namespace Sys2Proof

/-- Outputs of a logic cell (R382, R383), in the order in which `Cells.sig` holds them. -/
inductive CellOut where
  | f | g | sum | qa | qb
  deriving DecidableEq, Repr, Inhabited

/-- The driver of a wire: every ordinary wire has exactly one (R386). Cell `n` is cell `n mod 1,024` of column
`n div 1,024`, RAM block `n` block `n mod 8` of column `n div 8`. -/
inductive Sig where
  | low
  | high
  | cell (n : Nat) (o : CellOut)
  | ram (n : Nat) (portB : Bool) (bit : Nat)
  | line (l : Nat)
  | net (k : Nat)
  /-- FAB_INk (R435) -/
  | fabIn (k : Nat)
  /-- receive port of a lane (R462): a bit of the word, and VALID; READY of its transmit port -/
  | laneBit (l i : Nat)
  | laneValid (l : Nat)
  | laneReady (l : Nat)
  /-- receive FIFO of a serial controller (R403): a bit of the byte at its head, and whether there is one; room in the
  transmit FIFO -/
  | serBit (c i : Nat)
  | serValid (c : Nat)
  | serRoom (c : Nat)
  /-- an output of another hard port (R404), whose commands tell what fabric logic does there -/
  | port (n : Nat)
  deriving DecidableEq, Repr, Inhabited

/-- The clock of a cell or a RAM port (R383): a global net, or a wire through the local selector. -/
inductive Clk where
  | net (k : Nat)
  | wire (s : Sig)
  deriving DecidableEq, Repr, Inhabited

/-- What feeds a global clock net ("Clocking"). -/
inductive ClkSource where
  | off
  | base
  | osc (k : Nat)
  | laneRx (l : Nat)
  | wire (s : Sig)
  deriving DecidableEq, Repr, Inhabited

/-- The modes of a logic cell (R382). -/
inductive CellMode where
  | whole | split | arith
  deriving DecidableEq, Repr, Inhabited

/-- Where a flip-flop takes its data (R383). -/
inductive FfData where
  | f | g | sum | i5
  deriving DecidableEq, Repr, Inhabited

/-- The options of a flip-flop (R383). -/
structure FfCfg where
  data  : FfData
  start : Bool
  force : Bool
  async : Bool
  latch : Bool
  deriving DecidableEq, Repr, Inhabited

/-- A logic cell (R382, R383). An unused clock enable is `high`, an unused force input `low`. -/
structure CellCfg where
  mode  : CellMode
  table : BitVec 64
  ins   : List Sig
  ffA   : FfCfg
  ffB   : FfCfg
  clk   : Clk
  inv   : Bool
  en    : Sig
  force : Sig
  deriving DecidableEq, Repr, Inhabited

/-- A port of a RAM block (R384): words of 2^`logW` bits, `logW` at most 5; ON_WRITE 0 PRIOR, 1 WRITTEN, 2 KEEP. -/
structure RamPort where
  clk     : Clk
  inv     : Bool
  logW    : Nat
  stages  : Nat
  onWrite : Nat
  en      : Sig
  we      : Sig
  addr    : List Sig
  din     : List Sig
  deriving DecidableEq, Repr, Inhabited

/-- A RAM block: its two ports and its initial contents (R384). -/
structure RamCfg where
  a    : RamPort
  b    : RamPort
  init : BitVec 32768
  deriving DecidableEq, Repr, Inhabited

/-- A driver site of a long line (R387): its value, and the wire of mode WIRE. -/
structure SiteCfg where
  value : Sig
  wire  : Sig
  deriving DecidableEq, Repr, Inhabited

/-- A value and an enable or flag that a column drives into a hard port or a crossbar function. -/
structure PortOut where
  col   : Nat
  value : List Sig
  valid : Sig
  deriving DecidableEq, Repr, Inhabited

/-- What a serial controller is set to (R403). Rates are in hertz. -/
inductive SerialCfg where
  | uart (baud dataBits : Nat) (parity : Option Bool) (stops : Nat) (flow : Bool)
  | spi (rate mode chip bits : Nat)
  | i2c (rate : Nat)
  deriving DecidableEq, Repr, Inhabited

/-- A serial controller: its setting, the push into its transmit FIFO and the take from its receive FIFO. -/
structure SerialPort where
  cfg  : SerialCfg
  push : PortOut
  take : Sig
  deriving DecidableEq, Repr, Inhabited

/-- A whole configuration. Cells, RAM blocks, sites (line × 192 + site), FAB_OUT functions, lanes' transmit ports and serial
controllers (UART 0 to 3, SPI 4 and 5, I²C 6 and 7) are listed where they are used. -/
structure Netlist where
  cells  : SMap CellCfg
  rams   : SMap RamCfg
  /-- CIN of cell 0 of each column, as a mask -/
  cin    : Nat
  /-- the sources of GCK0 to GCK15 -/
  nets   : List ClkSource
  /-- the input of the GSR cell (R392) -/
  gsr    : Sig
  sites  : SMap SiteCfg
  outs   : SMap PortOut
  lanes  : SMap PortOut
  serial : SMap SerialPort
  deriving DecidableEq, Repr, Inhabited

/-- The blank configuration. -/
def Netlist.blank : Netlist :=
  { cells := [], rams := [], cin := 0, nets := [], gsr := .low, sites := [], outs := [], lanes := [], serial := [] }

end Sys2Proof
end

