-- ==== Sys2Proof/Config.lean ====
section
/-!
DEFINITION. Config.lean: what the specification leaves open, as constants with no body. No proof can see what they
are, so a statement about them holds whatever they are.
-/

namespace Sys2Proof.Config

/-- A value the specification does not fix: the `n`-th one that half `h` takes (log entry 4). -/
opaque freeValue (w : Nat) (h n : Nat) : BitVec w

/-- The bits ID and IL that port `p` of half `h` commits in a cycle `n` in which it presents no word (R254): ID from bit 1 up,
IL in bit 0. They depend on nothing else, as R28 has it. -/
opaque openInput (h p n : Nat) : BitVec 65

/-- The external trigger sample that an evaluation in cycle `n` of half `h` uses while assured operation is active and no sample
has been accepted yet (R302): levels, edges and PTP-reached flags. -/
opaque openSample (h n : Nat) : BitVec 20

/-- The device databases of the fabric compiler that a half supports (R394). -/
opaque dbSupported (dbId : Nat) : Bool

/-- What the frames of a configuration say, read by the device database that DB_ID names (R394): cell tables, flip-flop options,
routing, RAM blocks, clocks and the fabric ends of ports, keyed as `Fab.frames`. -/
opaque netlist (dbId : Nat) (frames : SMap Bytes) : Netlist

/-- A value in the fabric or on a lane that no rule promises: thing `n` of kind `k` of half `h` at time `t`. -/
opaque openBit (h k n t : Nat) : Bool
opaque openNum (h k n t : Nat) : Nat

/-- What lane `l` of half `h` receives of its own block in near-end loopback in BASE-R (R462, R467): the block coding is another
standard's. -/
opaque baseRLoop (h l word : Nat) : Nat

/-- What word `w` of the embedded flash of half `h` reads after its sector's `n`-th erasure (R402). -/
opaque flashErased (h w n : Nat) : BitVec 64

/-- ECDSA P-384 verification (R590) of a signature over a message under a public key: an algorithm of its own standard,
which no rule of the specification states. -/
opaque ecdsaVerify (key msg sig : Bytes) : Bool

/-- The design-centre values of the trims and calibration of the factory set in the ROM of half `h` (R563): bytes 0x10 to
0x7B of the set. -/
opaque factoryTrim (h : Nat) : BitVec 864

/-- The opaque engine block of an export (R370, KIND 5): its bytes, and what bytes of such a block hold. The specification
gives no layout. -/
opaque engineBlock (α : Type) (x : α) : Bytes
opaque engineOf (α : Type) (b : Bytes) : Option α

end Sys2Proof.Config
end

