-- ==== Sys2Proof/Machine/Regs.lean ====
section
/-!
DEFINITION. Machine/Regs.lean: every register of the specification: its offset from the control base (R18, R43),
its access types (R17) as bit masks, and its reset value.

Offsets at or above 0x200_0000 are the per-tile control space (R42): TIL(n) at 0x200_0000 + n × 0x10_0000, the BPA
registers of tile n 0x8_0000 above it.
-/

namespace Sys2Proof.Machine

/-- One register or one array of registers: `base + i*s1 + j*s2` for `i < n1` and `j < n2`. A bit outside the four
masks is read-only, reserved, or write-only (never stored, so it reads 0). -/
structure RegDesc where
  base  : Nat
  n1    : Nat
  s1    : Nat
  n2    : Nat
  s2    : Nat
  rw    : Nat
  w1c   : Nat
  w1s   : Nat
  rwl   : Nat
  reset : Nat
  latch : Bool
  deriving DecidableEq, Repr

namespace Reg

/-- `NOC_PARAM0` (R38). -/
abbrev nocParam0 : Nat := 0x1200000
/-- `NOC_PARAM1` (R39). -/
abbrev nocParam1 : Nat := 0x1200004
/-- `MEM_WINSEL` (R46). -/
abbrev memWinsel (i : Nat) : Nat := 0xc00000 + 4 * i
/-- `BPA_STATUS` (R85). -/
abbrev bpaStatus (i : Nat) : Nat := 0x2080000 + 0x100000 * i
/-- `BPA_FAULT_LOC` (R86). -/
abbrev bpaFaultLoc (i : Nat) : Nat := 0x2080004 + 0x100000 * i
/-- `BPA_FAULT_CYC_LO` (R87). -/
abbrev bpaFaultCycLo (i : Nat) : Nat := 0x2080008 + 0x100000 * i
/-- `BPA_FAULT_CYC_HI` (R87). -/
abbrev bpaFaultCycHi (i : Nat) : Nat := 0x208000c + 0x100000 * i
/-- `BPA_ECC_COUNT` (R88). -/
abbrev bpaEccCount (i : Nat) : Nat := 0x2080010 + 0x100000 * i
/-- `BPA_REPAIR` (R89). -/
abbrev bpaRepair (i j : Nat) : Nat := 0x2080100 + 0x100000 * i + 4 * j
/-- `BPA_UNSERVED_LO` (R90). -/
abbrev bpaUnservedLo (i j : Nat) : Nat := 0x2080200 + 0x100000 * i + 8 * j
/-- `BPA_UNSERVED_HI` (R90). -/
abbrev bpaUnservedHi (i j : Nat) : Nat := 0x2080204 + 0x100000 * i + 8 * j
/-- `XCH_FAULT_STATUS` (R133). -/
abbrev xchFaultStatus : Nat := 0xb00000
/-- `XCH_FAULT_LOC` (R134). -/
abbrev xchFaultLoc : Nat := 0xb00004
/-- `XCH_FAULT_CYC_LO` (R134). -/
abbrev xchFaultCycLo : Nat := 0xb00008
/-- `XCH_FAULT_CYC_HI` (R134). -/
abbrev xchFaultCycHi : Nat := 0xb0000c
/-- `XCH_ECC_COUNT` (R134). -/
abbrev xchEccCount : Nat := 0xb00010
/-- `XCH_BRG_STATUS` (R137). -/
abbrev xchBrgStatus : Nat := 0xb00020
/-- `LNK_TM_MODID` (R163). -/
abbrev lnkTmModid : Nat := 0xf01000
/-- `LNK_TM_RUNCFG` (R163). -/
abbrev lnkTmRuncfg : Nat := 0xf01004
/-- `LNK_TM_DIGEST` (R163). -/
abbrev lnkTmDigest : Nat := 0xf01008
/-- `LNK_TM_LSC_LO` (R163). -/
abbrev lnkTmLscLo : Nat := 0xf0100c
/-- `LNK_TM_LSC_HI` (R163). -/
abbrev lnkTmLscHi : Nat := 0xf01010
/-- `LNK_TM_BCFG` (R165). -/
abbrev lnkTmBcfg (i : Nat) : Nat := 0xf01100 + 0x20 * i
/-- `LNK_TM_BSTAT` (R165). -/
abbrev lnkTmBstat (i : Nat) : Nat := 0xf01104 + 0x20 * i
/-- `LNK_TM_BPEER` (R165). -/
abbrev lnkTmBpeer (i : Nat) : Nat := 0xf01108 + 0x20 * i
/-- `LNK_TM_BMEAS` (R165). -/
abbrev lnkTmBmeas (i : Nat) : Nat := 0xf0110c + 0x20 * i
/-- `LNK_TM_BERR` (R165). -/
abbrev lnkTmBerr (i : Nat) : Nat := 0xf01110 + 0x20 * i
/-- `LNK_TM_BEVT` (R165). -/
abbrev lnkTmBevt (i : Nat) : Nat := 0xf01114 + 0x20 * i
/-- `SEQ_CTRL` (R204). -/
abbrev seqCtrl : Nat := 0x500000
/-- `SEQ_STATUS` (R205). -/
abbrev seqStatus : Nat := 0x500004
/-- `SEQ_RUNCFG` (R206). -/
abbrev seqRuncfg : Nat := 0x500008
/-- `SEQ_FAULT` (R207). -/
abbrev seqFault : Nat := 0x50000c
/-- `SEQ_HOSTMSG_LO` (R208). -/
abbrev seqHostmsgLo : Nat := 0x500010
/-- `SEQ_HOSTMSG_HI` (R208). -/
abbrev seqHostmsgHi : Nat := 0x500014
/-- `SEQ_HOSTARG_LO` (R208). -/
abbrev seqHostargLo : Nat := 0x500018
/-- `SEQ_HOSTARG_HI` (R208). -/
abbrev seqHostargHi : Nat := 0x50001c
/-- `SEQ_CYC_LO` (R209). -/
abbrev seqCycLo : Nat := 0x500020
/-- `SEQ_CYC_HI` (R209). -/
abbrev seqCycHi : Nat := 0x500024
/-- `SEQ_VT_LO` (R209). -/
abbrev seqVtLo : Nat := 0x500028
/-- `SEQ_VT_HI` (R209). -/
abbrev seqVtHi : Nat := 0x50002c
/-- `SEQ_STOPINFO` (R210). -/
abbrev seqStopinfo : Nat := 0x500030
/-- `SEQ_TIMER` (R211). -/
abbrev seqTimer : Nat := 0x500034
/-- `SEQ_EVT_CYC_LO` (R209). -/
abbrev seqEvtCycLo : Nat := 0x500038
/-- `SEQ_EVT_CYC_HI` (R209). -/
abbrev seqEvtCycHi : Nat := 0x50003c
/-- `SEQ_EVT_PEND` (R212). -/
abbrev seqEvtPend (i : Nat) : Nat := 0x500100 + 4 * i
/-- `SEQ_EVT_EN` (R212). -/
abbrev seqEvtEn (i : Nat) : Nat := 0x500140 + 4 * i
/-- `SEQ_EVT_ACT` (R212). -/
abbrev seqEvtAct (i : Nat) : Nat := 0x500180 + 4 * i
/-- `EDG_STATUS` (R214). -/
abbrev edgStatus : Nat := 0x600000
/-- `EDG_EXTGAP` (R214). -/
abbrev edgExtgap : Nat := 0x600004
/-- `EDG_EXTREF` (R214). -/
abbrev edgExtref : Nat := 0x600008
/-- `EDG_NEXTVT_LO` (R214). -/
abbrev edgNextvtLo : Nat := 0x600010
/-- `EDG_NEXTVT_HI` (R214). -/
abbrev edgNextvtHi : Nat := 0x600014
/-- `EDG_STALL_LO` (R214). -/
abbrev edgStallLo (i : Nat) : Nat := 0x600100 + 8 * i
/-- `EDG_STALL_HI` (R214). -/
abbrev edgStallHi (i : Nat) : Nat := 0x600104 + 8 * i
/-- `EDG_IDLE_LO` (R214). -/
abbrev edgIdleLo : Nat := 0x600140
/-- `EDG_IDLE_HI` (R214). -/
abbrev edgIdleHi : Nat := 0x600144
/-- `EDG_DESC` (R214). -/
abbrev edgDesc (i j : Nat) : Nat := 0x601000 + 0x20 * i + 4 * j
/-- `EDG_DCNT_LO` (R214). -/
abbrev edgDcntLo (i : Nat) : Nat := 0x602000 + 8 * i
/-- `EDG_DCNT_HI` (R214). -/
abbrev edgDcntHi (i : Nat) : Nat := 0x602004 + 8 * i
/-- `TIL_MPORT_CFG` (R217). -/
abbrev tilMportCfg (i j : Nat) : Nat := 0x2000100 + 0x100000 * i + 0x10 * j
/-- `TIL_MPORT_BASE` (R218). -/
abbrev tilMportBase (i j : Nat) : Nat := 0x2000104 + 0x100000 * i + 0x10 * j
/-- `MEM_SP_ACL` (R234). -/
abbrev memSpAcl : Nat := 0xc00100
/-- `MEM_MARCH_CTRL` (R246). -/
abbrev memMarchCtrl : Nat := 0xc00200
/-- `MEM_MARCH_STATUS` (R246). -/
abbrev memMarchStatus : Nat := 0xc00204
/-- `MEM_MARCH_TILES_LO` (R246). -/
abbrev memMarchTilesLo : Nat := 0xc00208
/-- `MEM_MARCH_TILES_HI` (R246). -/
abbrev memMarchTilesHi : Nat := 0xc0020c
/-- `MEM_BGT_CTRL` (R250). -/
abbrev memBgtCtrl : Nat := 0xc00300
/-- `MEM_BGT_STATUS` (R250). -/
abbrev memBgtStatus : Nat := 0xc00304
/-- `MEM_BGT_FAIL_LO` (R250). -/
abbrev memBgtFailLo : Nat := 0xc00308
/-- `MEM_BGT_FAIL_HI` (R250). -/
abbrev memBgtFailHi : Nat := 0xc0030c
/-- `MEM_ECC_COUNT` (R240). -/
abbrev memEccCount : Nat := 0xc00400
/-- `MEM_ERR_STATUS` (R240). -/
abbrev memErrStatus : Nat := 0xc00404
/-- `MEM_ERR_ADDR_LO` (R240). -/
abbrev memErrAddrLo : Nat := 0xc00408
/-- `MEM_ERR_ADDR_HI` (R240). -/
abbrev memErrAddrHi : Nat := 0xc0040c
/-- `HBC_ECC_COUNT` (R240). -/
abbrev hbcEccCount (i : Nat) : Nat := 0x1400000 + 4 * i
/-- `TXE_CTRL` (R283). -/
abbrev txeCtrl : Nat := 0x700000
/-- `TXE_STATUS` (R284). -/
abbrev txeStatus : Nat := 0x700004
/-- `TXE_ABORT` (R285). -/
abbrev txeAbort : Nat := 0x700008
/-- `TXE_ABORT_RES` (R285). -/
abbrev txeAbortRes : Nat := 0x70000c
/-- `TXE_ERR` (R286). -/
abbrev txeErr : Nat := 0x700010
/-- `TXE_SQ_BASE_LO` (R287). -/
abbrev txeSqBaseLo (i : Nat) : Nat := 0x701000 + 0x40 * i
/-- `TXE_SQ_BASE_HI` (R287). -/
abbrev txeSqBaseHi (i : Nat) : Nat := 0x701004 + 0x40 * i
/-- `TXE_SQ_CFG` (R287). -/
abbrev txeSqCfg (i : Nat) : Nat := 0x701008 + 0x40 * i
/-- `TXE_SQ_TAIL` (R287). -/
abbrev txeSqTail (i : Nat) : Nat := 0x70100c + 0x40 * i
/-- `TXE_SQ_STAT` (R287). -/
abbrev txeSqStat (i : Nat) : Nat := 0x701010 + 0x40 * i
/-- `TXE_CQ_BASE_LO` (R287). -/
abbrev txeCqBaseLo (i : Nat) : Nat := 0x701014 + 0x40 * i
/-- `TXE_CQ_BASE_HI` (R287). -/
abbrev txeCqBaseHi (i : Nat) : Nat := 0x701018 + 0x40 * i
/-- `TXE_CQ_CFG` (R287). -/
abbrev txeCqCfg (i : Nat) : Nat := 0x70101c + 0x40 * i
/-- `TXE_CQ_HEAD` (R287). -/
abbrev txeCqHead (i : Nat) : Nat := 0x701020 + 0x40 * i
/-- `TXE_CQ_STAT` (R287). -/
abbrev txeCqStat (i : Nat) : Nat := 0x701024 + 0x40 * i
/-- `TXE_Q_QUOTA` (R287). -/
abbrev txeQQuota (i : Nat) : Nat := 0x701028 + 0x40 * i
/-- `TXE_DP_CFG` (R288). -/
abbrev txeDpCfg (i : Nat) : Nat := 0x704000 + 0x20 * i
/-- `TXE_DP_BUF` (R288). -/
abbrev txeDpBuf (i : Nat) : Nat := 0x704004 + 0x20 * i
/-- `TXE_DP_MSG` (R288). -/
abbrev txeDpMsg (i : Nat) : Nat := 0x704008 + 0x20 * i
/-- `TXE_DP_STAT` (R288). -/
abbrev txeDpStat (i : Nat) : Nat := 0x70400c + 0x20 * i
/-- `TXE_DP_OSEQ_LO` (R288). -/
abbrev txeDpOseqLo (i : Nat) : Nat := 0x704010 + 0x20 * i
/-- `TXE_DP_OSEQ_HI` (R288). -/
abbrev txeDpOseqHi (i : Nat) : Nat := 0x704014 + 0x20 * i
/-- `TXE_LCH` (R289). -/
abbrev txeLch (i : Nat) : Nat := 0x706004 + 4 * i
/-- `TRG_CTL` (R332). -/
abbrev trgCtl (i : Nat) : Nat := 0x800000 + 0x40 * i
/-- `TRG_STAT` (R333). -/
abbrev trgStat (i : Nat) : Nat := 0x800004 + 0x40 * i
/-- `TRG_FIRE_CYC_LO` (R334). -/
abbrev trgFireCycLo (i : Nat) : Nat := 0x800008 + 0x40 * i
/-- `TRG_FIRE_CYC_HI` (R334). -/
abbrev trgFireCycHi (i : Nat) : Nat := 0x80000c + 0x40 * i
/-- `TRG_CNT0` (R334). -/
abbrev trgCnt0 (i : Nat) : Nat := 0x800010 + 0x40 * i
/-- `TRG_CNT1` (R334). -/
abbrev trgCnt1 (i : Nat) : Nat := 0x800014 + 0x40 * i
/-- `TRG_XSAMPLE` (R334). -/
abbrev trgXsample : Nat := 0x800100
/-- `CAP_CTL` (R332). -/
abbrev capCtl (i : Nat) : Nat := 0x900000 + 0x80 * i
/-- `CAP_STAT` (R333). -/
abbrev capStat (i : Nat) : Nat := 0x900004 + 0x80 * i
/-- `CAP_PRE_EFF` (R335). -/
abbrev capPreEff (i : Nat) : Nat := 0x900008 + 0x80 * i
/-- `CAP_POST_EFF` (R335). -/
abbrev capPostEff (i : Nat) : Nat := 0x90000c + 0x80 * i
/-- `CAP_TRIG_CYC_LO` (R335). -/
abbrev capTrigCycLo (i : Nat) : Nat := 0x900010 + 0x80 * i
/-- `CAP_TRIG_CYC_HI` (R335). -/
abbrev capTrigCycHi (i : Nat) : Nat := 0x900014 + 0x80 * i
/-- `CAP_WPTR_LO` (R335). -/
abbrev capWptrLo (i : Nat) : Nat := 0x900018 + 0x80 * i
/-- `CAP_WPTR_HI` (R335). -/
abbrev capWptrHi (i : Nat) : Nat := 0x90001c + 0x80 * i
/-- `CAP_FIRST_LO` (R335). -/
abbrev capFirstLo (i : Nat) : Nat := 0x900020 + 0x80 * i
/-- `CAP_FIRST_HI` (R335). -/
abbrev capFirstHi (i : Nat) : Nat := 0x900024 + 0x80 * i
/-- `CAP_SPILL_LO` (R335). -/
abbrev capSpillLo (i : Nat) : Nat := 0x900028 + 0x80 * i
/-- `CAP_SPILL_HI` (R335). -/
abbrev capSpillHi (i : Nat) : Nat := 0x90002c + 0x80 * i
/-- `CAP_GAP_LO` (R335). -/
abbrev capGapLo (i : Nat) : Nat := 0x900030 + 0x80 * i
/-- `CAP_GAP_HI` (R335). -/
abbrev capGapHi (i : Nat) : Nat := 0x900034 + 0x80 * i
/-- `CAP_HS_HEAD` (R335). -/
abbrev capHsHead (i : Nat) : Nat := 0x900038 + 0x80 * i
/-- `CAP_HS_TAIL` (R335). -/
abbrev capHsTail (i : Nat) : Nat := 0x90003c + 0x80 * i
/-- `PLY_CTL` (R332). -/
abbrev plyCtl (i : Nat) : Nat := 0x1500000 + 0x40 * i
/-- `PLY_STAT` (R333). -/
abbrev plyStat (i : Nat) : Nat := 0x1500004 + 0x40 * i
/-- `PLY_VEC_LO` (R336). -/
abbrev plyVecLo (i : Nat) : Nat := 0x1500008 + 0x40 * i
/-- `PLY_VEC_HI` (R336). -/
abbrev plyVecHi (i : Nat) : Nat := 0x150000c + 0x40 * i
/-- `PLY_LOOP` (R336). -/
abbrev plyLoop (i : Nat) : Nat := 0x1500010 + 0x40 * i
/-- `ASR_CTRL` (R374). -/
abbrev asrCtrl : Nat := 0xa00000
/-- `ASR_STATUS` (R375). -/
abbrev asrStatus : Nat := 0xa00004
/-- `ASR_AREA_BASE` (R376). -/
abbrev asrAreaBase : Nat := 0xa00008
/-- `ASR_AREA_SIZE` (R376). -/
abbrev asrAreaSize : Nat := 0xa0000c
/-- `ASR_JSIZE` (R376). -/
abbrev asrJsize : Nat := 0xa00010
/-- `ASR_UNDO` (R376). -/
abbrev asrUndo : Nat := 0xa00014
/-- `ASR_NEED` (R376). -/
abbrev asrNeed : Nat := 0xa00018
/-- `ASR_GEN_NEW` (R377). -/
abbrev asrGenNew : Nat := 0xa0001c
/-- `ASR_GEN_OLD` (R377). -/
abbrev asrGenOld : Nat := 0xa00020
/-- `ASR_GEN_CYC_LO` (R377). -/
abbrev asrGenCycLo : Nat := 0xa00024
/-- `ASR_GEN_CYC_HI` (R377). -/
abbrev asrGenCycHi : Nat := 0xa00028
/-- `ASR_ASEQ_LO` (R377). -/
abbrev asrAseqLo : Nat := 0xa0002c
/-- `ASR_ASEQ_HI` (R377). -/
abbrev asrAseqHi : Nat := 0xa00030
/-- `ASR_JSEQ_LO` (R377). -/
abbrev asrJseqLo : Nat := 0xa00034
/-- `ASR_JSEQ_HI` (R377). -/
abbrev asrJseqHi : Nat := 0xa00038
/-- `ASR_REPLAY_END_LO` (R377). -/
abbrev asrReplayEndLo : Nat := 0xa0003c
/-- `ASR_REPLAY_END_HI` (R377). -/
abbrev asrReplayEndHi : Nat := 0xa00040
/-- `ASR_EVT` (R378). -/
abbrev asrEvt : Nat := 0xa00044
/-- `ASR_IRQ` (R379). -/
abbrev asrIrq : Nat := 0xa00048
/-- `ASR_CMD` (R380). -/
abbrev asrCmd : Nat := 0xa00050
/-- `ASR_CMD_STAT` (R380). -/
abbrev asrCmdStat : Nat := 0xa00054
/-- `ASR_XBASE` (R376). -/
abbrev asrXbase : Nat := 0xa00058
/-- `ASR_XLEN_LO` (R377). -/
abbrev asrXlenLo : Nat := 0xa0005c
/-- `ASR_XLEN_HI` (R377). -/
abbrev asrXlenHi : Nat := 0xa00060
/-- `ASR_MISMATCH_LO` (R377). -/
abbrev asrMismatchLo : Nat := 0xa00068
/-- `ASR_MISMATCH_HI` (R377). -/
abbrev asrMismatchHi : Nat := 0xa0006c
/-- `ASR_MISMATCH_CYC_LO` (R377). -/
abbrev asrMismatchCycLo : Nat := 0xa00070
/-- `ASR_MISMATCH_CYC_HI` (R377). -/
abbrev asrMismatchCycHi : Nat := 0xa00074
/-- `ASR_CQ_HZN_LO` (R377). -/
abbrev asrCqHznLo (i : Nat) : Nat := 0xa01000 + 8 * i
/-- `ASR_CQ_HZN_HI` (R377). -/
abbrev asrCqHznHi (i : Nat) : Nat := 0xa01004 + 8 * i
/-- `ASR_DP_HZN_LO` (R377). -/
abbrev asrDpHznLo (i : Nat) : Nat := 0xa02000 + 8 * i
/-- `ASR_DP_HZN_HI` (R377). -/
abbrev asrDpHznHi (i : Nat) : Nat := 0xa02004 + 8 * i
/-- `ASR_FAB_HZN_LO` (R377). -/
abbrev asrFabHznLo : Nat := 0xa03000
/-- `ASR_FAB_HZN_HI` (R377). -/
abbrev asrFabHznHi : Nat := 0xa03004
/-- `AFB_CTRL` (R419). -/
abbrev afbCtrl : Nat := 0xd00000
/-- `AFB_STATUS` (R420). -/
abbrev afbStatus : Nat := 0xd00004
/-- `AFB_LOAD_LO` (R421). -/
abbrev afbLoadLo : Nat := 0xd00008
/-- `AFB_LOAD_HI` (R421). -/
abbrev afbLoadHi : Nat := 0xd0000c
/-- `AFB_LOAD_CFG` (R421). -/
abbrev afbLoadCfg : Nat := 0xd00010
/-- `AFB_EVT` (R422). -/
abbrev afbEvt : Nat := 0xd00020
/-- `AFB_LL_CONT` (R423). -/
abbrev afbLlCont : Nat := 0xd00024
/-- `AFB_LL_DIS_LO` (R423). -/
abbrev afbLlDisLo : Nat := 0xd00028
/-- `AFB_LL_DIS_HI` (R423). -/
abbrev afbLlDisHi : Nat := 0xd0002c
/-- `AFB_ACK_LO` (R424). -/
abbrev afbAckLo : Nat := 0xd00030
/-- `AFB_ACK_HI` (R424). -/
abbrev afbAckHi : Nat := 0xd00034
/-- `AFB_TXQ_LO` (R424). -/
abbrev afbTxqLo : Nat := 0xd00038
/-- `AFB_TXQ_HI` (R424). -/
abbrev afbTxqHi : Nat := 0xd0003c
/-- `AFB_HBM_BASE` (R424). -/
abbrev afbHbmBase : Nat := 0xd00040
/-- `AFB_HBM_SIZE` (R424). -/
abbrev afbHbmSize : Nat := 0xd00044
/-- `AFB_REQ` (R424). -/
abbrev afbReq : Nat := 0xd00048
/-- `AFB_IRQ` (R424). -/
abbrev afbIrq : Nat := 0xd0004c
/-- `AFB_OSC` (R425). -/
abbrev afbOsc (i : Nat) : Nat := 0xd00060 + 4 * i
/-- `AFB_FL_CMD` (R426). -/
abbrev afbFlCmd : Nat := 0xd00080
/-- `AFB_FL_ADDR` (R426). -/
abbrev afbFlAddr : Nat := 0xd00084
/-- `AFB_FL_DATA_LO` (R426). -/
abbrev afbFlDataLo : Nat := 0xd00088
/-- `AFB_FL_DATA_HI` (R426). -/
abbrev afbFlDataHi : Nat := 0xd0008c
/-- `AFB_FL_STAT` (R426). -/
abbrev afbFlStat : Nat := 0xd00090
/-- `AFB_CH_CFG` (R427). -/
abbrev afbChCfg (i : Nat) : Nat := 0xd00100 + 0x10 * i
/-- `AFB_CH_BITS` (R427). -/
abbrev afbChBits (i : Nat) : Nat := 0xd00104 + 0x10 * i
/-- `AFB_CH_STAT` (R427). -/
abbrev afbChStat (i : Nat) : Nat := 0xd00108 + 0x10 * i
/-- `AFB_CH_WSEQ` (R427). -/
abbrev afbChWseq (i : Nat) : Nat := 0xd0010c + 0x10 * i
/-- `PIN_DATA` (R450). -/
abbrev pinData (i : Nat) : Nat := 0xe00000 + 4 * i
/-- `PIN_DATA_SET` (R450). -/
abbrev pinDataSet (i : Nat) : Nat := 0xe00008 + 4 * i
/-- `PIN_DATA_CLR` (R450). -/
abbrev pinDataClr (i : Nat) : Nat := 0xe00010 + 4 * i
/-- `PIN_OE` (R450). -/
abbrev pinOe (i : Nat) : Nat := 0xe00018 + 4 * i
/-- `PIN_PAD` (R450). -/
abbrev pinPad (i : Nat) : Nat := 0xe00020 + 4 * i
/-- `PIN_DEB` (R450). -/
abbrev pinDeb (i : Nat) : Nat := 0xe00028 + 4 * i
/-- `PIN_IRQ_STAT` (R450). -/
abbrev pinIrqStat (i : Nat) : Nat := 0xe00030 + 4 * i
/-- `PIN_IRQ_EN` (R450). -/
abbrev pinIrqEn (i : Nat) : Nat := 0xe00038 + 4 * i
/-- `PIN_IRQ_VEC` (R451). -/
abbrev pinIrqVec : Nat := 0xe00040
/-- `PIN_BANK_VIO` (R452). -/
abbrev pinBankVio : Nat := 0xe00044
/-- `PIN_WAKE_STAT` (R456). -/
abbrev pinWakeStat : Nat := 0xe00050
/-- `PIN_WAKE` (R456). -/
abbrev pinWake (i : Nat) : Nat := 0xe00080 + 4 * i
/-- `PIN_CFG` (R453). -/
abbrev pinCfg (i : Nat) : Nat := 0xe00100 + 4 * i
/-- `PIN_OCONF` (R454). -/
abbrev pinOconf (i : Nat) : Nat := 0xe00200 + 4 * i
/-- `PIN_DSN_OUT` (R455). -/
abbrev pinDsnOut : Nat := 0xe00300
/-- `PIN_DSN_IN` (R455). -/
abbrev pinDsnIn : Nat := 0xe00304
/-- `PIN_DSN_STAT` (R455). -/
abbrev pinDsnStat : Nat := 0xe00308
/-- `PIN_OSEL` (R454). -/
abbrev pinOsel (i : Nat) : Nat := 0xe01000 + 4 * i
/-- `PIN_ISEL` (R454). -/
abbrev pinIsel (i : Nat) : Nat := 0xe02000 + 4 * i
/-- `LNK_LANE_CFG` (R469). -/
abbrev lnkLaneCfg (i : Nat) : Nat := 0xf00000 + 0x20 * i
/-- `LNK_LANE_STAT` (R470). -/
abbrev lnkLaneStat (i : Nat) : Nat := 0xf00004 + 0x20 * i
/-- `LNK_LANE_ERR` (R470). -/
abbrev lnkLaneErr (i : Nat) : Nat := 0xf00008 + 0x20 * i
/-- `LNK_LANE_FEC` (R470). -/
abbrev lnkLaneFec (i : Nat) : Nat := 0xf0000c + 0x20 * i
/-- `LNK_QUAD` (R471). -/
abbrev lnkQuad (i : Nat) : Nat := 0xf00800 + 4 * i
/-- `LNK_IRQ` (R472). -/
abbrev lnkIrq : Nat := 0xf00c00
/-- `LNK_LANE_EVT_LO` (R472). -/
abbrev lnkLaneEvtLo : Nat := 0xf00c04
/-- `LNK_LANE_EVT_HI` (R472). -/
abbrev lnkLaneEvtHi : Nat := 0xf00c08
/-- `PCI_CTRL` (R482). -/
abbrev pciCtrl : Nat := 0x1000000
/-- `PCI_STATUS` (R482). -/
abbrev pciStatus : Nat := 0x1000004
/-- `PCI_EVT` (R482). -/
abbrev pciEvt : Nat := 0x1000008
/-- `PCI_HELD` (R482). -/
abbrev pciHeld : Nat := 0x100000c
/-- `LNK_ME_CFG` (R486). -/
abbrev lnkMeCfg : Nat := 0xf02000
/-- `LNK_ME_ADDR_LO` (R486). -/
abbrev lnkMeAddrLo : Nat := 0xf02004
/-- `LNK_ME_ADDR_HI` (R486). -/
abbrev lnkMeAddrHi : Nat := 0xf02008
/-- `LNK_ME_RX_BASE` (R486). -/
abbrev lnkMeRxBase : Nat := 0xf0200c
/-- `LNK_ME_RX_SIZE` (R486). -/
abbrev lnkMeRxSize : Nat := 0xf02010
/-- `LNK_ME_RX_WPTR` (R486). -/
abbrev lnkMeRxWptr : Nat := 0xf02014
/-- `LNK_ME_RX_RPTR` (R486). -/
abbrev lnkMeRxRptr : Nat := 0xf02018
/-- `LNK_ME_TX_BASE` (R486). -/
abbrev lnkMeTxBase : Nat := 0xf0201c
/-- `LNK_ME_TX_SIZE` (R486). -/
abbrev lnkMeTxSize : Nat := 0xf02020
/-- `LNK_ME_TX_WPTR` (R486). -/
abbrev lnkMeTxWptr : Nat := 0xf02024
/-- `LNK_ME_TX_RPTR` (R486). -/
abbrev lnkMeTxRptr : Nat := 0xf02028
/-- `LNK_ME_STAT` (R486). -/
abbrev lnkMeStat : Nat := 0xf0202c
/-- `LNK_ME_CNT0` (R486). -/
abbrev lnkMeCnt0 : Nat := 0xf02030
/-- `LNK_ME_CNT1` (R486). -/
abbrev lnkMeCnt1 : Nat := 0xf02034
/-- `LNK_ME_IRQ` (R486). -/
abbrev lnkMeIrq : Nat := 0xf02038
/-- `PTM_CTRL` (R509). -/
abbrev ptmCtrl : Nat := 0x1100000
/-- `PTM_STATUS` (R509). -/
abbrev ptmStatus : Nat := 0x1100004
/-- `PTM_TIME` (R509). -/
abbrev ptmTime (i : Nat) : Nat := 0x1100008 + 4 * i
/-- `PTM_SET` (R509). -/
abbrev ptmSet (i : Nat) : Nat := 0x1100018 + 4 * i
/-- `PTM_RATE` (R509). -/
abbrev ptmRate : Nat := 0x1100028
/-- `PTM_NOMINAL` (R509). -/
abbrev ptmNominal : Nat := 0x110002c
/-- `PTM_SERVO` (R509). -/
abbrev ptmServo : Nat := 0x1100030
/-- `PTM_TX_ADJ` (R509). -/
abbrev ptmTxAdj : Nat := 0x1100034
/-- `PTM_RX_ADJ` (R509). -/
abbrev ptmRxAdj : Nat := 0x1100038
/-- `PTM_CLKID` (R509). -/
abbrev ptmClkid (i : Nat) : Nat := 0x110003c + 4 * i
/-- `PTM_STEP_LO` (R509). -/
abbrev ptmStepLo : Nat := 0x1100044
/-- `PTM_STEP_HI` (R509). -/
abbrev ptmStepHi : Nat := 0x1100048
/-- `PTM_EVT` (R509). -/
abbrev ptmEvt : Nat := 0x1100050
/-- `PTM_IRQ` (R509). -/
abbrev ptmIrq : Nat := 0x1100054
/-- `PTM_TXTS_ID` (R512). -/
abbrev ptmTxtsId : Nat := 0x1100060
/-- `PTM_TXTS` (R512). -/
abbrev ptmTxts (i : Nat) : Nat := 0x1100064 + 4 * i
/-- `PTM_DSN` (R513). -/
abbrev ptmDsn : Nat := 0x1100080
/-- `PTM_DSN_STAT` (R513). -/
abbrev ptmDsnStat : Nat := 0x1100084
/-- `PTM_DOM_CFG` (R510). -/
abbrev ptmDomCfg (i : Nat) : Nat := 0x1100100 + 0x40 * i
/-- `PTM_DOM_TMPL` (R510). -/
abbrev ptmDomTmpl (i : Nat) : Nat := 0x1100104 + 0x40 * i
/-- `PTM_DOM_MID` (R510). -/
abbrev ptmDomMid (i j : Nat) : Nat := 0x1100108 + 0x40 * i + 4 * j
/-- `PTM_DOM_MPORT` (R510). -/
abbrev ptmDomMport (i : Nat) : Nat := 0x1100110 + 0x40 * i
/-- `PTM_DOM_CUR` (R510). -/
abbrev ptmDomCur (i j : Nat) : Nat := 0x1100114 + 0x40 * i + 4 * j
/-- `PTM_DOM_INFO` (R510). -/
abbrev ptmDomInfo (i : Nat) : Nat := 0x110011c + 0x40 * i
/-- `PTM_DOM_OFFSET` (R510). -/
abbrev ptmDomOffset (i : Nat) : Nat := 0x1100120 + 0x40 * i
/-- `PTM_DOM_DELAY` (R510). -/
abbrev ptmDomDelay (i : Nat) : Nat := 0x1100124 + 0x40 * i
/-- `PTM_DOM_CNT` (R510). -/
abbrev ptmDomCnt (i : Nat) : Nat := 0x1100128 + 0x40 * i
/-- `PTM_TPO_CTRL` (R511). -/
abbrev ptmTpoCtrl (i : Nat) : Nat := 0x1100200 + 0x20 * i
/-- `PTM_TPO_SEC_LO` (R511). -/
abbrev ptmTpoSecLo (i : Nat) : Nat := 0x1100204 + 0x20 * i
/-- `PTM_TPO_SEC_HI` (R511). -/
abbrev ptmTpoSecHi (i : Nat) : Nat := 0x1100208 + 0x20 * i
/-- `PTM_TPO_NS` (R511). -/
abbrev ptmTpoNs (i : Nat) : Nat := 0x110020c + 0x20 * i
/-- `PTM_TPO_PERIOD` (R511). -/
abbrev ptmTpoPeriod (i : Nat) : Nat := 0x1100210 + 0x20 * i
/-- `PTM_TPO_WIDTH` (R511). -/
abbrev ptmTpoWidth (i : Nat) : Nat := 0x1100214 + 0x20 * i
/-- `PTM_TPO_COUNT` (R511). -/
abbrev ptmTpoCount (i : Nat) : Nat := 0x1100218 + 0x20 * i
/-- `PTM_TPO_STAT` (R511). -/
abbrev ptmTpoStat (i : Nat) : Nat := 0x110021c + 0x20 * i
/-- `PTM_TCAP_CFG` (R512). -/
abbrev ptmTcapCfg (i : Nat) : Nat := 0x1100300 + 0x20 * i
/-- `PTM_TCAP_ID` (R512). -/
abbrev ptmTcapId (i : Nat) : Nat := 0x1100304 + 0x20 * i
/-- `PTM_TCAP` (R512). -/
abbrev ptmTcap (i j : Nat) : Nat := 0x1100308 + 0x20 * i + 4 * j
/-- `NOC_STATUS` (R543). -/
abbrev nocStatus : Nat := 0x1200010
/-- `NOC_CORR_COUNT` (R543). -/
abbrev nocCorrCount : Nat := 0x1200014
/-- `NOC_PRB_CFG` (R544). -/
abbrev nocPrbCfg (i : Nat) : Nat := 0x1200100 + 0x40 * i
/-- `NOC_PRB_ID` (R544). -/
abbrev nocPrbId (i : Nat) : Nat := 0x1200104 + 0x40 * i
/-- `NOC_PRB_ADDR_LO` (R544). -/
abbrev nocPrbAddrLo (i : Nat) : Nat := 0x1200108 + 0x40 * i
/-- `NOC_PRB_ADDR_HI` (R544). -/
abbrev nocPrbAddrHi (i : Nat) : Nat := 0x120010c + 0x40 * i
/-- `NOC_PRB_AMASK_LO` (R544). -/
abbrev nocPrbAmaskLo (i : Nat) : Nat := 0x1200110 + 0x40 * i
/-- `NOC_PRB_AMASK_HI` (R544). -/
abbrev nocPrbAmaskHi (i : Nat) : Nat := 0x1200114 + 0x40 * i
/-- `NOC_PRB_PKTS_LO` (R544). -/
abbrev nocPrbPktsLo (i : Nat) : Nat := 0x1200118 + 0x40 * i
/-- `NOC_PRB_PKTS_HI` (R544). -/
abbrev nocPrbPktsHi (i : Nat) : Nat := 0x120011c + 0x40 * i
/-- `NOC_PRB_FLITS_LO` (R544). -/
abbrev nocPrbFlitsLo (i : Nat) : Nat := 0x1200120 + 0x40 * i
/-- `NOC_PRB_FLITS_HI` (R544). -/
abbrev nocPrbFlitsHi (i : Nat) : Nat := 0x1200124 + 0x40 * i
/-- `NOC_PRB_WAIT_LO` (R544). -/
abbrev nocPrbWaitLo (i : Nat) : Nat := 0x1200128 + 0x40 * i
/-- `NOC_PRB_WAIT_HI` (R544). -/
abbrev nocPrbWaitHi (i : Nat) : Nat := 0x120012c + 0x40 * i
/-- `TRC_CTRL` (R545). -/
abbrev trcCtrl : Nat := 0x1300000
/-- `TRC_SRC_EN` (R545). -/
abbrev trcSrcEn : Nat := 0x1300004
/-- `TRC_STATUS` (R545). -/
abbrev trcStatus : Nat := 0x1300008
/-- `TRC_TXE_CFG` (R545). -/
abbrev trcTxeCfg : Nat := 0x130000c
/-- `TRC_HBM_BASE` (R545). -/
abbrev trcHbmBase : Nat := 0x1300010
/-- `TRC_HBM_SIZE` (R545). -/
abbrev trcHbmSize : Nat := 0x1300014
/-- `TRC_WPTR_LO` (R545). -/
abbrev trcWptrLo : Nat := 0x1300018
/-- `TRC_WPTR_HI` (R545). -/
abbrev trcWptrHi : Nat := 0x130001c
/-- `TRC_BLOCKS_LO` (R545). -/
abbrev trcBlocksLo : Nat := 0x1300020
/-- `TRC_BLOCKS_HI` (R545). -/
abbrev trcBlocksHi : Nat := 0x1300024
/-- `TRC_DROP` (R545). -/
abbrev trcDrop : Nat := 0x1300028
/-- `TRC_EM_CTRL` (R545). -/
abbrev trcEmCtrl : Nat := 0x1300030
/-- `TRC_EM_S` (R545). -/
abbrev trcEmS (i : Nat) : Nat := 0x1300040 + 4 * i
/-- `TRC_STW_LOG` (R545). -/
abbrev trcStwLog : Nat := 0x1300050
/-- `TRC_STW_END` (R545). -/
abbrev trcStwEnd : Nat := 0x1300054
/-- `TRC_IRQ` (R545). -/
abbrev trcIrq : Nat := 0x1300058
/-- `RST_CAUSE` (R571). -/
abbrev rstCause : Nat := 0
/-- `RST_SWRST` (R572). -/
abbrev rstSwrst : Nat := 4
/-- `RST_STATUS` (R573). -/
abbrev rstStatus : Nat := 8
/-- `RST_WDOG` (R573). -/
abbrev rstWdog : Nat := 0xc
/-- `CLK_REF_CFG` (R574). -/
abbrev clkRefCfg : Nat := 0x100000
/-- `CLK_STATUS` (R574). -/
abbrev clkStatus : Nat := 0x100004
/-- `CLK_EVT` (R574). -/
abbrev clkEvt : Nat := 0x100008
/-- `PWR_STATUS` (R575). -/
abbrev pwrStatus : Nat := 0x200000
/-- `PWR_FEED` (R575). -/
abbrev pwrFeed : Nat := 0x200004
/-- `PWR_TEMP` (R575). -/
abbrev pwrTemp : Nat := 0x200008
/-- `PWR_EVT` (R575). -/
abbrev pwrEvt : Nat := 0x20000c
/-- `PWR_IRQ` (R575). -/
abbrev pwrIrq : Nat := 0x200010
/-- `PWR_WAKE` (R575). -/
abbrev pwrWake : Nat := 0x200014
/-- `STW_MBX_CTRL` (R576). -/
abbrev stwMbxCtrl (i : Nat) : Nat := 0x300000 + 0x400 * i
/-- `STW_MBX_STAT` (R576). -/
abbrev stwMbxStat (i : Nat) : Nat := 0x300004 + 0x400 * i
/-- `STW_MBX_IRQ` (R576). -/
abbrev stwMbxIrq (i : Nat) : Nat := 0x300008 + 0x400 * i
/-- `STW_MBX_ARG` (R576). -/
abbrev stwMbxArg (i j : Nat) : Nat := 0x300100 + 0x400 * i + 4 * j
/-- `STW_MBX_RSP` (R576). -/
abbrev stwMbxRsp (i j : Nat) : Nat := 0x300200 + 0x400 * i + 4 * j
/-- `STW_BOOT` (R576). -/
abbrev stwBoot : Nat := 0x300f00
/-- `SEC_CTRL` (R599). -/
abbrev secCtrl : Nat := 0x400000
/-- `SEC_STATUS` (R599). -/
abbrev secStatus : Nat := 0x400004
/-- `SEC_TAMPER_CFG` (R600). -/
abbrev secTamperCfg : Nat := 0x400008
/-- `SEC_TAMPER_STAT` (R600). -/
abbrev secTamperStat : Nat := 0x40000c
/-- `SEC_LOCKOUT` (R600). -/
abbrev secLockout : Nat := 0x400010
/-- `SEC_MS` (R601). -/
abbrev secMs (i j : Nat) : Nat := 0x400100 + 0x40 * i + 4 * j
/-- `SEC_MS_CNT` (R601). -/
abbrev secMsCnt (i : Nat) : Nat := 0x400130 + 0x40 * i

end Reg

/-- Registers of the RST block. -/
def regsRst : List RegDesc := [
  ⟨0, 1, 0, 1, 0, 0, 0x1fff, 0, 0, 1, false⟩,
  ⟨4, 1, 0, 1, 0, 0, 0, 0x3fffff, 0, 0, false⟩,
  ⟨8, 1, 0, 1, 0, 0, 1, 0, 0, 0, false⟩,
  ⟨0xc, 1, 0, 1, 0, 0x8000ffff, 0, 0, 0, 0x3e8, false⟩]

/-- Registers of the CLK block. -/
def regsClk : List RegDesc := [
  ⟨0x100000, 1, 0, 1, 0, 0x3f, 0, 0, 0, 0xc, false⟩,
  ⟨0x100004, 1, 0, 1, 0, 0, 1, 0, 0, 0, false⟩,
  ⟨0x100008, 1, 0, 1, 0, 0, 7, 0, 0, 0, false⟩]

/-- Registers of the PWR block. -/
def regsPwr : List RegDesc := [
  ⟨0x200000, 1, 0, 1, 0, 0, 0, 0, 0, 0, false⟩,
  ⟨0x200004, 1, 0, 1, 0, 0, 0, 0, 0, 0, false⟩,
  ⟨0x200008, 1, 0, 1, 0, 0, 0, 0, 0, 0, false⟩,
  ⟨0x20000c, 1, 0, 1, 0, 0, 0x3f, 0, 0, 0, false⟩,
  ⟨0x200010, 1, 0, 1, 0, 0x800000ff, 0, 0, 0, 0, false⟩,
  ⟨0x200014, 1, 0, 1, 0, 0x80ffffff, 0, 0, 0, 0, false⟩]

/-- Registers of the STW block. -/
def regsStw : List RegDesc := [
  ⟨0x300000, 3, 0x400, 1, 0, 0xff, 0, 0, 0, 0, false⟩,
  ⟨0x300004, 3, 0x400, 1, 0, 0, 6, 0, 0, 0, false⟩,
  ⟨0x300008, 3, 0x400, 1, 0, 0x800000ff, 0, 0, 0, 0, false⟩,
  ⟨0x300100, 3, 0x400, 16, 4, 0xffffffff, 0, 0, 0, 0, false⟩,
  ⟨0x300200, 3, 0x400, 16, 4, 0, 0, 0, 0, 0, false⟩,
  ⟨0x300f00, 1, 0, 1, 0, 0, 0, 0, 0, 0, false⟩]

/-- Registers of the SEC block. -/
def regsSec : List RegDesc := [
  ⟨0x400000, 1, 0, 1, 0, 0, 0, 1, 0, 0, false⟩,
  ⟨0x400004, 1, 0, 1, 0, 0, 0, 0, 0, 0, false⟩,
  ⟨0x400008, 1, 0, 1, 0, 0, 0, 0, 0xf, 0xf, false⟩,
  ⟨0x40000c, 1, 0, 1, 0, 0, 0xf, 0, 0, 0, false⟩,
  ⟨0x400010, 1, 0, 1, 0, 0, 0, 0, 0, 0, false⟩,
  ⟨0x400100, 8, 0x40, 12, 4, 0, 0, 0, 0, 0, false⟩,
  ⟨0x400130, 8, 0x40, 1, 0, 0, 0, 0, 0, 0, false⟩]

/-- Registers of the SEQ block. -/
def regsSeq : List RegDesc := [
  ⟨0x500000, 1, 0, 1, 0, 0, 0, 0, 0, 0, false⟩,
  ⟨0x500004, 1, 0, 1, 0, 0, 0, 0, 0, 0, false⟩,
  ⟨0x500008, 1, 0, 1, 0, 7, 0, 0, 0, 0, false⟩,
  ⟨0x50000c, 1, 0, 1, 0, 0, 1, 0, 0, 0, false⟩,
  ⟨0x500010, 1, 0, 1, 0, 0, 0, 0, 0, 0, false⟩,
  ⟨0x500014, 1, 0, 1, 0, 0, 0, 0, 0, 0, false⟩,
  ⟨0x500018, 1, 0, 1, 0, 0xffffffff, 0, 0, 0, 0, false⟩,
  ⟨0x50001c, 1, 0, 1, 0, 0xffffffff, 0, 0, 0, 0, false⟩,
  ⟨0x500020, 1, 0, 1, 0, 0, 0, 0, 0, 0, true⟩,
  ⟨0x500024, 1, 0, 1, 0, 0, 0, 0, 0, 0, false⟩,
  ⟨0x500028, 1, 0, 1, 0, 0, 0, 0, 0, 0, true⟩,
  ⟨0x50002c, 1, 0, 1, 0, 0, 0, 0, 0, 0, false⟩,
  ⟨0x500030, 1, 0, 1, 0, 0, 0, 0, 0, 0, false⟩,
  ⟨0x500034, 1, 0, 1, 0, 0xffffffff, 0, 0, 0, 0, false⟩,
  ⟨0x500038, 1, 0, 1, 0, 0, 0, 0, 0, 0, true⟩,
  ⟨0x50003c, 1, 0, 1, 0, 0, 0, 0, 0, 0, false⟩,
  ⟨0x500100, 16, 4, 1, 0, 0, 0xffffffff, 0, 0, 0, false⟩,
  ⟨0x500140, 16, 4, 1, 0, 0xffffffff, 0, 0, 0, 0, false⟩,
  ⟨0x500180, 32, 4, 1, 0, 0xffffffff, 0, 0, 0, 0, false⟩]

/-- Registers of the EDG block. -/
def regsEdg : List RegDesc := [
  ⟨0x600000, 1, 0, 1, 0, 0, 0, 0, 0, 0, false⟩,
  ⟨0x600004, 1, 0, 1, 0, 0xffffffff, 0, 0, 0, 0x3e8, false⟩,
  ⟨0x600008, 1, 0, 1, 0, 0, 0, 0, 0, 0, false⟩,
  ⟨0x600010, 1, 0, 1, 0, 0, 0, 0, 0, 0, true⟩,
  ⟨0x600014, 1, 0, 1, 0, 0, 0, 0, 0, 0, false⟩,
  ⟨0x600100, 8, 8, 1, 0, 0, 0, 0, 0, 0, true⟩,
  ⟨0x600104, 8, 8, 1, 0, 0, 0, 0, 0, 0, false⟩,
  ⟨0x600140, 1, 0, 1, 0, 0, 0, 0, 0, 0, true⟩,
  ⟨0x600144, 1, 0, 1, 0, 0, 0, 0, 0, 0, false⟩,
  ⟨0x601000, 128, 0x20, 8, 4, 0xffffffff, 0, 0, 0, 0, false⟩,
  ⟨0x602000, 128, 8, 1, 0, 0, 0, 0, 0, 0, true⟩,
  ⟨0x602004, 128, 8, 1, 0, 0, 0, 0, 0, 0, false⟩]

/-- Registers of the TXE block. -/
def regsTxe : List RegDesc := [
  ⟨0x700000, 1, 0, 1, 0, 0x1ff01, 0, 0, 0, 0, false⟩,
  ⟨0x700004, 1, 0, 1, 0, 0, 0, 0, 0, 0, false⟩,
  ⟨0x700008, 1, 0, 1, 0, 0, 0, 0, 0, 0, false⟩,
  ⟨0x70000c, 1, 0, 1, 0, 0, 0x100, 0, 0, 0, false⟩,
  ⟨0x700010, 1, 0, 1, 0, 0, 0x1e, 0, 0, 0, false⟩,
  ⟨0x701000, 64, 0x40, 1, 0, 0xfffff000, 0, 0, 0, 0, false⟩,
  ⟨0x701004, 64, 0x40, 1, 0, 0xffffffff, 0, 0, 0, 0, false⟩,
  ⟨0x701008, 64, 0x40, 1, 0, 0xc000ffff, 0, 0, 0, 0, false⟩,
  ⟨0x70100c, 64, 0x40, 1, 0, 0xffff, 0, 0, 0, 0, false⟩,
  ⟨0x701010, 64, 0x40, 1, 0, 0, 0x10, 0, 0, 0, false⟩,
  ⟨0x701014, 64, 0x40, 1, 0, 0xfffff000, 0, 0, 0, 0, false⟩,
  ⟨0x701018, 64, 0x40, 1, 0, 0xffffffff, 0, 0, 0, 0, false⟩,
  ⟨0x70101c, 64, 0x40, 1, 0, 0xc0ffffff, 0, 0, 0, 0, false⟩,
  ⟨0x701020, 64, 0x40, 1, 0, 0xffff, 0, 0, 0, 0, false⟩,
  ⟨0x701024, 64, 0x40, 1, 0, 0, 0, 0, 0, 1, false⟩,
  ⟨0x701028, 64, 0x40, 1, 0, 0x1fff, 0, 0, 0, 0x1000, false⟩,
  ⟨0x704000, 256, 0x20, 1, 0, 0, 0, 0, 0, 0, false⟩,
  ⟨0x704004, 256, 0x20, 1, 0, 0, 0, 0, 0, 0, false⟩,
  ⟨0x704008, 256, 0x20, 1, 0, 0, 0, 0, 0, 0, false⟩,
  ⟨0x70400c, 256, 0x20, 1, 0, 0, 0, 0, 0, 0, false⟩,
  ⟨0x704010, 256, 0x20, 1, 0, 0, 0, 0, 0, 0, true⟩,
  ⟨0x704014, 256, 0x20, 1, 0, 0, 0, 0, 0, 0, false⟩,
  ⟨0x706004, 255, 4, 1, 0, 0x800f01ff, 0, 0, 0, 0, false⟩]

/-- Registers of the TRG block. -/
def regsTrg : List RegDesc := [
  ⟨0x800000, 4, 0x40, 1, 0, 0xff800fff, 0, 0, 0, 0, false⟩,
  ⟨0x800004, 4, 0x40, 1, 0, 0, 3, 0, 0, 0, false⟩,
  ⟨0x800008, 4, 0x40, 1, 0, 0, 0, 0, 0, 0, true⟩,
  ⟨0x80000c, 4, 0x40, 1, 0, 0, 0, 0, 0, 0, false⟩,
  ⟨0x800010, 4, 0x40, 1, 0, 0, 0, 0, 0, 0, false⟩,
  ⟨0x800014, 4, 0x40, 1, 0, 0, 0, 0, 0, 0, false⟩,
  ⟨0x800100, 1, 0, 1, 0, 0, 0, 0, 0, 0, false⟩]

/-- Registers of the CAP block. -/
def regsCap : List RegDesc := [
  ⟨0x900000, 4, 0x80, 1, 0, 0xff800fff, 0, 0, 0, 0, false⟩,
  ⟨0x900004, 4, 0x80, 1, 0, 0, 3, 0, 0, 0, false⟩,
  ⟨0x900008, 4, 0x80, 1, 0, 0, 0, 0, 0, 0, false⟩,
  ⟨0x90000c, 4, 0x80, 1, 0, 0, 0, 0, 0, 0, false⟩,
  ⟨0x900010, 4, 0x80, 1, 0, 0, 0, 0, 0, 0, true⟩,
  ⟨0x900014, 4, 0x80, 1, 0, 0, 0, 0, 0, 0, false⟩,
  ⟨0x900018, 4, 0x80, 1, 0, 0, 0, 0, 0, 0, true⟩,
  ⟨0x90001c, 4, 0x80, 1, 0, 0, 0, 0, 0, 0, false⟩,
  ⟨0x900020, 4, 0x80, 1, 0, 0, 0, 0, 0, 0, true⟩,
  ⟨0x900024, 4, 0x80, 1, 0, 0, 0, 0, 0, 0, false⟩,
  ⟨0x900028, 4, 0x80, 1, 0, 0, 0, 0, 0, 0, true⟩,
  ⟨0x90002c, 4, 0x80, 1, 0, 0, 0, 0, 0, 0, false⟩,
  ⟨0x900030, 4, 0x80, 1, 0, 0, 0, 0, 0, 0, true⟩,
  ⟨0x900034, 4, 0x80, 1, 0, 0, 0, 0, 0, 0, false⟩,
  ⟨0x900038, 4, 0x80, 1, 0, 0xfffffff8, 0, 0, 0, 0, false⟩,
  ⟨0x90003c, 4, 0x80, 1, 0, 0, 0, 0, 0, 0, false⟩]

/-- Registers of the ASR block. -/
def regsAsr : List RegDesc := [
  ⟨0xa00000, 1, 0, 1, 0, 0x3f01, 0, 0, 0, 0x1400, false⟩,
  ⟨0xa00004, 1, 0, 1, 0, 0, 0, 0, 0, 0, false⟩,
  ⟨0xa00008, 1, 0, 1, 0, 0xffff, 0, 0, 0, 0, false⟩,
  ⟨0xa0000c, 1, 0, 1, 0, 0xffff, 0, 0, 0, 0, false⟩,
  ⟨0xa00010, 1, 0, 1, 0, 0xffff, 0, 0, 0, 0x100, false⟩,
  ⟨0xa00014, 1, 0, 1, 0, 0xffff, 0, 0, 0, 0x400, false⟩,
  ⟨0xa00018, 1, 0, 1, 0, 0, 0, 0, 0, 0, false⟩,
  ⟨0xa0001c, 1, 0, 1, 0, 0, 0, 0, 0, 0, false⟩,
  ⟨0xa00020, 1, 0, 1, 0, 0, 0, 0, 0, 0, false⟩,
  ⟨0xa00024, 1, 0, 1, 0, 0, 0, 0, 0, 0, true⟩,
  ⟨0xa00028, 1, 0, 1, 0, 0, 0, 0, 0, 0, false⟩,
  ⟨0xa0002c, 1, 0, 1, 0, 0, 0, 0, 0, 0, true⟩,
  ⟨0xa00030, 1, 0, 1, 0, 0, 0, 0, 0, 0, false⟩,
  ⟨0xa00034, 1, 0, 1, 0, 0, 0, 0, 0, 0, true⟩,
  ⟨0xa00038, 1, 0, 1, 0, 0, 0, 0, 0, 0, false⟩,
  ⟨0xa0003c, 1, 0, 1, 0, 0, 0, 0, 0, 0, true⟩,
  ⟨0xa00040, 1, 0, 1, 0, 0, 0, 0, 0, 0, false⟩,
  ⟨0xa00044, 1, 0, 1, 0, 0, 0x3ff, 0, 0, 0, false⟩,
  ⟨0xa00048, 1, 0, 1, 0, 0x800000ff, 0, 0, 0, 0, false⟩,
  ⟨0xa00050, 1, 0, 1, 0, 0, 0, 0, 0, 0, false⟩,
  ⟨0xa00054, 1, 0, 1, 0, 0, 1, 0, 0, 0, false⟩,
  ⟨0xa00058, 1, 0, 1, 0, 0xffff, 0, 0, 0, 0, false⟩,
  ⟨0xa0005c, 1, 0, 1, 0, 0, 0, 0, 0, 0, true⟩,
  ⟨0xa00060, 1, 0, 1, 0, 0, 0, 0, 0, 0, false⟩,
  ⟨0xa00068, 1, 0, 1, 0, 0, 0, 0, 0, 0, true⟩,
  ⟨0xa0006c, 1, 0, 1, 0, 0, 0, 0, 0, 0, false⟩,
  ⟨0xa00070, 1, 0, 1, 0, 0, 0, 0, 0, 0, true⟩,
  ⟨0xa00074, 1, 0, 1, 0, 0, 0, 0, 0, 0, false⟩,
  ⟨0xa01000, 64, 8, 1, 0, 0, 0, 0, 0, 0, true⟩,
  ⟨0xa01004, 64, 8, 1, 0, 0, 0, 0, 0, 0, false⟩,
  ⟨0xa02000, 256, 8, 1, 0, 0, 0, 0, 0, 0, true⟩,
  ⟨0xa02004, 256, 8, 1, 0, 0, 0, 0, 0, 0, false⟩,
  ⟨0xa03000, 1, 0, 1, 0, 0, 0, 0, 0, 0, true⟩,
  ⟨0xa03004, 1, 0, 1, 0, 0, 0, 0, 0, 0, false⟩]

/-- Registers of the XCH block. -/
def regsXch : List RegDesc := [
  ⟨0xb00000, 1, 0, 1, 0, 0, 1, 0, 0, 0, false⟩,
  ⟨0xb00004, 1, 0, 1, 0, 0, 0, 0, 0, 0, false⟩,
  ⟨0xb00008, 1, 0, 1, 0, 0, 0, 0, 0, 0, false⟩,
  ⟨0xb0000c, 1, 0, 1, 0, 0, 0, 0, 0, 0, false⟩,
  ⟨0xb00010, 1, 0, 1, 0, 0, 0, 0, 0, 0, false⟩,
  ⟨0xb00020, 1, 0, 1, 0, 0, 2, 0, 0, 0, false⟩]

/-- Registers of the MEM block. -/
def regsMem : List RegDesc := [
  ⟨0xc00000, 5, 4, 1, 0, 0x7ff, 0, 0, 0, 0x400, false⟩,
  ⟨0xc00100, 1, 0, 1, 0, 0xff00df, 0, 0, 0, 0xff0040, false⟩,
  ⟨0xc00200, 1, 0, 1, 0, 0xfc, 0, 0, 0, 0, false⟩,
  ⟨0xc00204, 1, 0, 1, 0, 0, 2, 0, 0, 0, false⟩,
  ⟨0xc00208, 1, 0, 1, 0, 0xffffffff, 0, 0, 0, 0xffffffff, false⟩,
  ⟨0xc0020c, 1, 0, 1, 0, 0xffffffff, 0, 0, 0, 0xffffffff, false⟩,
  ⟨0xc00300, 1, 0, 1, 0, 0xff01, 0, 0, 0, 0x1000, false⟩,
  ⟨0xc00304, 1, 0, 1, 0, 0, 6, 0, 0, 0, false⟩,
  ⟨0xc00308, 1, 0, 1, 0, 0, 0, 0, 0, 0, false⟩,
  ⟨0xc0030c, 1, 0, 1, 0, 0, 0, 0, 0, 0, false⟩,
  ⟨0xc00400, 1, 0, 1, 0, 0, 0, 0, 0, 0, false⟩,
  ⟨0xc00404, 1, 0, 1, 0, 0, 3, 0, 0, 0, false⟩,
  ⟨0xc00408, 1, 0, 1, 0, 0, 0, 0, 0, 0, false⟩,
  ⟨0xc0040c, 1, 0, 1, 0, 0, 0, 0, 0, 0, false⟩]

/-- Registers of the AFB block. -/
def regsAfb : List RegDesc := [
  ⟨0xd00000, 1, 0, 1, 0, 0xff00, 0, 0, 0, 0x800, false⟩,
  ⟨0xd00004, 1, 0, 1, 0, 0, 0, 0, 0, 0, false⟩,
  ⟨0xd00008, 1, 0, 1, 0, 0xffffffff, 0, 0, 0, 0, false⟩,
  ⟨0xd0000c, 1, 0, 1, 0, 0xff, 0, 0, 0, 0, false⟩,
  ⟨0xd00010, 1, 0, 1, 0, 7, 0, 0, 0, 0, false⟩,
  ⟨0xd00020, 1, 0, 1, 0, 0, 0x3f, 0, 0, 0, false⟩,
  ⟨0xd00024, 1, 0, 1, 0, 0, 0, 0, 0, 0, false⟩,
  ⟨0xd00028, 1, 0, 1, 0, 0, 0xffffffff, 0, 0, 0, false⟩,
  ⟨0xd0002c, 1, 0, 1, 0, 0, 0xffffffff, 0, 0, 0, false⟩,
  ⟨0xd00030, 1, 0, 1, 0, 0, 0, 0, 0, 0xffffffff, true⟩,
  ⟨0xd00034, 1, 0, 1, 0, 0, 0, 0, 0, 0xffffffff, false⟩,
  ⟨0xd00038, 1, 0, 1, 0, 0xffffffff, 0, 0, 0, 0, false⟩,
  ⟨0xd0003c, 1, 0, 1, 0, 0xffffffff, 0, 0, 0, 0, false⟩,
  ⟨0xd00040, 1, 0, 1, 0, 0xffff, 0, 0, 0, 0, false⟩,
  ⟨0xd00044, 1, 0, 1, 0, 0xffff, 0, 0, 0, 0, false⟩,
  ⟨0xd00048, 1, 0, 1, 0, 0, 0x100, 0, 0, 0, false⟩,
  ⟨0xd0004c, 1, 0, 1, 0, 0x800000ff, 0, 0, 0, 0, false⟩,
  ⟨0xd00060, 4, 4, 1, 0, 0xffffffff, 0, 0, 0, 0, false⟩,
  ⟨0xd00080, 1, 0, 1, 0, 0, 0, 0, 0, 0, false⟩,
  ⟨0xd00084, 1, 0, 1, 0, 0x1ffff8, 0, 0, 0, 0, false⟩,
  ⟨0xd00088, 1, 0, 1, 0, 0xffffffff, 0, 0, 0, 0, false⟩,
  ⟨0xd0008c, 1, 0, 1, 0, 0xffffffff, 0, 0, 0, 0, false⟩,
  ⟨0xd00090, 1, 0, 1, 0, 0, 0xe, 0, 0, 0, false⟩,
  ⟨0xd00100, 32, 0x10, 1, 0, 0, 0, 0, 0, 0, false⟩,
  ⟨0xd00104, 32, 0x10, 1, 0, 0, 0, 0, 0, 0, false⟩,
  ⟨0xd00108, 32, 0x10, 1, 0, 0, 0, 0, 0, 0, false⟩,
  ⟨0xd0010c, 32, 0x10, 1, 0, 0, 0, 0, 0, 0, false⟩]

/-- Registers of the PIN block. -/
def regsPin : List RegDesc := [
  ⟨0xe00000, 2, 4, 1, 0, 0xffffffff, 0, 0, 0, 0, false⟩,
  ⟨0xe00008, 2, 4, 1, 0, 0, 0, 0xffffffff, 0, 0, false⟩,
  ⟨0xe00010, 2, 4, 1, 0, 0, 0xffffffff, 0, 0, 0, false⟩,
  ⟨0xe00018, 2, 4, 1, 0, 0xffffffff, 0, 0, 0, 0, false⟩,
  ⟨0xe00020, 2, 4, 1, 0, 0, 0, 0, 0, 0, false⟩,
  ⟨0xe00028, 2, 4, 1, 0, 0, 0, 0, 0, 0, false⟩,
  ⟨0xe00030, 2, 4, 1, 0, 0, 0xffffffff, 0, 0, 0, false⟩,
  ⟨0xe00038, 2, 4, 1, 0, 0xffffffff, 0, 0, 0, 0, false⟩,
  ⟨0xe00040, 1, 0, 1, 0, 0x800000ff, 0, 0, 0, 0, false⟩,
  ⟨0xe00044, 1, 0, 1, 0, 0xff, 0x1000, 0, 0, 0xf00, false⟩,
  ⟨0xe00050, 1, 0, 1, 0, 0, 0xffff, 0, 0, 0, false⟩,
  ⟨0xe00080, 16, 4, 1, 0, 0x8000033f, 0, 0, 0, 0, false⟩,
  ⟨0xe00100, 64, 4, 1, 0, 0xff3f0013, 0, 0, 0, 0, false⟩,
  ⟨0xe00200, 32, 4, 1, 0, 0, 0xffffffff, 0, 0, 0, false⟩,
  ⟨0xe00300, 1, 0, 1, 0, 0xbfff007f, 0, 0, 0, 0, false⟩,
  ⟨0xe00304, 1, 0, 1, 0, 0xbfff007f, 0, 0, 0, 0, false⟩,
  ⟨0xe00308, 1, 0, 1, 0, 0, 1, 0, 0, 0, false⟩,
  ⟨0xe01000, 1024, 4, 1, 0, 0x8000003f, 0, 0, 0, 0, false⟩,
  ⟨0xe02000, 1024, 4, 1, 0, 0x8000003f, 0, 0, 0, 0, false⟩]

/-- Registers of the LNK block. -/
def regsLnk : List RegDesc := [
  ⟨0xf01000, 1, 0, 1, 0, 0xffffffff, 0, 0, 0, 0, false⟩,
  ⟨0xf01004, 1, 0, 1, 0, 0x3ffffff, 0, 0, 0, 0, false⟩,
  ⟨0xf01008, 1, 0, 1, 0, 0xffffffff, 0, 0, 0, 0, false⟩,
  ⟨0xf0100c, 1, 0, 1, 0, 0, 0, 0, 0, 0, true⟩,
  ⟨0xf01010, 1, 0, 1, 0, 0, 0, 0, 0, 0, false⟩,
  ⟨0xf01100, 12, 0x20, 1, 0, 0xfffff801, 0, 0, 0, 0, false⟩,
  ⟨0xf01104, 12, 0x20, 1, 0, 0, 0, 0, 0, 0, false⟩,
  ⟨0xf01108, 12, 0x20, 1, 0, 0, 0, 0, 0, 0, false⟩,
  ⟨0xf0110c, 12, 0x20, 1, 0, 0, 0, 0, 0, 0, false⟩,
  ⟨0xf01110, 12, 0x20, 1, 0, 0, 0, 0, 0, 0, false⟩,
  ⟨0xf01114, 12, 0x20, 1, 0, 0, 0x1f, 0, 0, 0, false⟩,
  ⟨0xf00000, 48, 0x20, 1, 0, 0xffefffe0, 0, 0, 0, 0xfc00, false⟩,
  ⟨0xf00004, 48, 0x20, 1, 0, 0, 0x18, 0, 0, 0, false⟩,
  ⟨0xf00008, 48, 0x20, 1, 0, 0, 0, 0, 0, 0, false⟩,
  ⟨0xf0000c, 48, 0x20, 1, 0, 0, 0, 0, 0, 0, false⟩,
  ⟨0xf00800, 12, 4, 1, 0, 0xff, 0x20000000, 0, 0, 0, false⟩,
  ⟨0xf00c00, 1, 0, 1, 0, 0xc000ffff, 0, 0, 0, 0, false⟩,
  ⟨0xf00c04, 1, 0, 1, 0, 0, 0xffffffff, 0, 0, 0, false⟩,
  ⟨0xf00c08, 1, 0, 1, 0, 0, 0xffff, 0, 0, 0, false⟩,
  ⟨0xf02000, 1, 0, 1, 0, 0xfe000000, 0, 0, 0, 0, false⟩,
  ⟨0xf02004, 1, 0, 1, 0, 0xffffffff, 0, 0, 0, 0, false⟩,
  ⟨0xf02008, 1, 0, 1, 0, 0xffff, 0, 0, 0, 0, false⟩,
  ⟨0xf0200c, 1, 0, 1, 0, 0xfffff, 0, 0, 0, 0, false⟩,
  ⟨0xf02010, 1, 0, 1, 0, 0xfffff, 0, 0, 0, 0, false⟩,
  ⟨0xf02014, 1, 0, 1, 0, 0, 0, 0, 0, 0, false⟩,
  ⟨0xf02018, 1, 0, 1, 0, 0xfffff, 0, 0, 0, 0, false⟩,
  ⟨0xf0201c, 1, 0, 1, 0, 0xfffff, 0, 0, 0, 0, false⟩,
  ⟨0xf02020, 1, 0, 1, 0, 0xfffff, 0, 0, 0, 0, false⟩,
  ⟨0xf02024, 1, 0, 1, 0, 0xfffff, 0, 0, 0, 0, false⟩,
  ⟨0xf02028, 1, 0, 1, 0, 0, 0, 0, 0, 0, false⟩,
  ⟨0xf0202c, 1, 0, 1, 0, 0, 4, 0, 0, 0, false⟩,
  ⟨0xf02030, 1, 0, 1, 0, 0, 0, 0, 0, 0, false⟩,
  ⟨0xf02034, 1, 0, 1, 0, 0, 0, 0, 0, 0, false⟩,
  ⟨0xf02038, 1, 0, 1, 0, 0x800000ff, 0, 0, 0, 0, false⟩]

/-- Registers of the PCI block. -/
def regsPci : List RegDesc := [
  ⟨0x1000000, 1, 0, 1, 0, 1, 0, 0, 0, 0, false⟩,
  ⟨0x1000004, 1, 0, 1, 0, 0, 0, 0, 0, 0, false⟩,
  ⟨0x1000008, 1, 0, 1, 0, 0, 0xf, 0, 0, 0, false⟩,
  ⟨0x100000c, 1, 0, 1, 0, 0, 0, 0, 0, 0, false⟩]

/-- Registers of the PTM block. -/
def regsPtm : List RegDesc := [
  ⟨0x1100000, 1, 0, 1, 0, 0xffff0031, 0, 0, 0, 0x3c0000, false⟩,
  ⟨0x1100004, 1, 0, 1, 0, 0, 0, 0, 0, 0, false⟩,
  ⟨0x1100008, 4, 4, 1, 0, 0, 0, 0, 0, 0, false⟩,
  ⟨0x1100018, 2, 8, 1, 0, 0xffffffff, 0, 0, 0, 0, false⟩,
  ⟨0x110001c, 2, 8, 1, 0, 0xffff, 0, 0, 0, 0, false⟩,
  ⟨0x1100028, 1, 0, 1, 0, 0, 0, 0, 0, 0, false⟩,
  ⟨0x110002c, 1, 0, 1, 0, 0xffffffff, 0, 0, 0, 0, false⟩,
  ⟨0x1100030, 1, 0, 1, 0, 0xffffff00, 0, 0, 0, 0x640a6200, false⟩,
  ⟨0x1100034, 1, 0, 1, 0, 0xffffffff, 0, 0, 0, 0, false⟩,
  ⟨0x1100038, 1, 0, 1, 0, 0xffffffff, 0, 0, 0, 0, false⟩,
  ⟨0x110003c, 2, 4, 1, 0, 0xffffffff, 0, 0, 0, 0, false⟩,
  ⟨0x1100044, 1, 0, 1, 0, 0, 0, 0, 0, 0, true⟩,
  ⟨0x1100048, 1, 0, 1, 0, 0, 0, 0, 0, 0, false⟩,
  ⟨0x1100050, 1, 0, 1, 0, 0, 0x1ff, 0, 0, 0, false⟩,
  ⟨0x1100054, 1, 0, 1, 0, 0x800000ff, 0, 0, 0, 0, false⟩,
  ⟨0x1100060, 1, 0, 1, 0, 0, 0, 0, 0, 0, false⟩,
  ⟨0x1100064, 4, 4, 1, 0, 0, 0, 0, 0, 0, false⟩,
  ⟨0x1100080, 1, 0, 1, 0, 0xbfff007f, 0, 0, 0, 0, false⟩,
  ⟨0x1100084, 1, 0, 1, 0, 0, 1, 0, 0, 0, false⟩,
  ⟨0x1100100, 2, 0x40, 1, 0, 0xfffffff0, 0, 0, 0, 0x30, false⟩,
  ⟨0x1100104, 2, 0x40, 1, 0, 0xfffff, 0, 0, 0, 0, false⟩,
  ⟨0x1100108, 2, 0x40, 2, 4, 0xffffffff, 0, 0, 0, 0, false⟩,
  ⟨0x1100110, 2, 0x40, 1, 0, 0xffff, 0, 0, 0, 0, false⟩,
  ⟨0x1100114, 2, 0x40, 2, 4, 0, 0, 0, 0, 0, false⟩,
  ⟨0x110011c, 2, 0x40, 1, 0, 0, 0, 0, 0, 0, false⟩,
  ⟨0x1100120, 2, 0x40, 1, 0, 0, 0, 0, 0, 0, false⟩,
  ⟨0x1100124, 2, 0x40, 1, 0, 0, 0, 0, 0, 0, false⟩,
  ⟨0x1100128, 2, 0x40, 1, 0, 0, 0, 0, 0, 0, false⟩,
  ⟨0x1100200, 4, 0x20, 1, 0, 0x20000000, 0, 0, 0, 0, false⟩,
  ⟨0x1100204, 4, 0x20, 1, 0, 0xffffffff, 0, 0, 0, 0, false⟩,
  ⟨0x1100208, 4, 0x20, 1, 0, 0xffff, 0, 0, 0, 0, false⟩,
  ⟨0x110020c, 4, 0x20, 1, 0, 0xffffffff, 0, 0, 0, 0, false⟩,
  ⟨0x1100210, 4, 0x20, 1, 0, 0xffffffff, 0, 0, 0, 0, false⟩,
  ⟨0x1100214, 4, 0x20, 1, 0, 0xffffffff, 0, 0, 0, 0, false⟩,
  ⟨0x1100218, 4, 0x20, 1, 0, 0xffffffff, 0, 0, 0, 0, false⟩,
  ⟨0x110021c, 4, 0x20, 1, 0, 0, 0, 0, 0, 0, false⟩,
  ⟨0x1100300, 2, 0x20, 1, 0, 3, 4, 0, 0, 0, false⟩,
  ⟨0x1100304, 2, 0x20, 1, 0, 0, 0, 0, 0, 0, false⟩,
  ⟨0x1100308, 2, 0x20, 4, 4, 0, 0, 0, 0, 0, false⟩]

/-- Registers of the NOC block. -/
def regsNoc : List RegDesc := [
  ⟨0x1200000, 1, 0, 1, 0, 0, 0, 0, 0, 0x22884002, false⟩,
  ⟨0x1200004, 1, 0, 1, 0, 0, 0, 0, 0, 0x304060, false⟩,
  ⟨0x1200010, 1, 0, 1, 0, 0, 0xf, 0, 0, 0, false⟩,
  ⟨0x1200014, 1, 0, 1, 0, 0, 0, 0, 0, 0, false⟩,
  ⟨0x1200100, 16, 0x40, 1, 0, 0xdfffffff, 0, 0, 0, 0x3000000, false⟩,
  ⟨0x1200104, 16, 0x40, 1, 0, 0xffffffff, 0, 0, 0, 0, false⟩,
  ⟨0x1200108, 16, 0x40, 1, 0, 0xffffffff, 0, 0, 0, 0, false⟩,
  ⟨0x120010c, 16, 0x40, 1, 0, 0xff, 0, 0, 0, 0, false⟩,
  ⟨0x1200110, 16, 0x40, 1, 0, 0xffffffff, 0, 0, 0, 0, false⟩,
  ⟨0x1200114, 16, 0x40, 1, 0, 0xff, 0, 0, 0, 0, false⟩,
  ⟨0x1200118, 16, 0x40, 1, 0, 0, 0, 0, 0, 0, true⟩,
  ⟨0x120011c, 16, 0x40, 1, 0, 0, 0, 0, 0, 0, false⟩,
  ⟨0x1200120, 16, 0x40, 1, 0, 0, 0, 0, 0, 0, true⟩,
  ⟨0x1200124, 16, 0x40, 1, 0, 0, 0, 0, 0, 0, false⟩,
  ⟨0x1200128, 16, 0x40, 1, 0, 0, 0, 0, 0, 0, true⟩,
  ⟨0x120012c, 16, 0x40, 1, 0, 0, 0, 0, 0, 0, false⟩]

/-- Registers of the TRC block. -/
def regsTrc : List RegDesc := [
  ⟨0x1300000, 1, 0, 1, 0, 0xfc00ff01, 0, 0, 0, 0, false⟩,
  ⟨0x1300004, 1, 0, 1, 0, 0xffff000f, 0, 0, 0, 0, false⟩,
  ⟨0x1300008, 1, 0, 1, 0, 0, 7, 0, 0, 0, false⟩,
  ⟨0x130000c, 1, 0, 1, 0, 0xc03f00ff, 0, 0, 0, 0, false⟩,
  ⟨0x1300010, 1, 0, 1, 0, 0xffff, 0, 0, 0, 0, false⟩,
  ⟨0x1300014, 1, 0, 1, 0, 0xffff, 0, 0, 0, 0, false⟩,
  ⟨0x1300018, 1, 0, 1, 0, 0, 0, 0, 0, 0, true⟩,
  ⟨0x130001c, 1, 0, 1, 0, 0, 0, 0, 0, 0, false⟩,
  ⟨0x1300020, 1, 0, 1, 0, 0, 0, 0, 0, 0, false⟩,
  ⟨0x1300024, 1, 0, 1, 0, 0, 0, 0, 0, 0, false⟩,
  ⟨0x1300028, 1, 0, 1, 0, 0, 0, 0, 0, 0, false⟩,
  ⟨0x1300030, 1, 0, 1, 0, 0, 0, 0, 0, 0, false⟩,
  ⟨0x1300040, 4, 4, 1, 0, 0xb3ff33ff, 0, 0, 0, 0x3ff03ff, false⟩,
  ⟨0x1300050, 1, 0, 1, 0, 0, 0, 0, 0, 0, false⟩,
  ⟨0x1300054, 1, 0, 1, 0, 0, 0, 0, 0, 0, false⟩,
  ⟨0x1300058, 1, 0, 1, 0, 0x800000ff, 0, 0, 0, 0, false⟩]

/-- Registers of the HBC block. -/
def regsHbc : List RegDesc := [
  ⟨0x1400000, 2, 4, 1, 0, 0, 0, 0, 0, 0, false⟩]

/-- Registers of the PLY block. -/
def regsPly : List RegDesc := [
  ⟨0x1500000, 4, 0x40, 1, 0, 0xff800fff, 0, 0, 0, 0, false⟩,
  ⟨0x1500004, 4, 0x40, 1, 0, 0, 3, 0, 0, 0, false⟩,
  ⟨0x1500008, 4, 0x40, 1, 0, 0, 0, 0, 0, 0, true⟩,
  ⟨0x150000c, 4, 0x40, 1, 0, 0, 0, 0, 0, 0, false⟩,
  ⟨0x1500010, 4, 0x40, 1, 0, 0, 0, 0, 0, 0, false⟩]

/-- Registers of the TILE block. -/
def regsTile : List RegDesc := [
  ⟨0x2080000, 64, 0x100000, 1, 0, 0, 5, 0, 0, 0, false⟩,
  ⟨0x2080004, 64, 0x100000, 1, 0, 0, 0, 0, 0, 0, false⟩,
  ⟨0x2080008, 64, 0x100000, 1, 0, 0, 0, 0, 0, 0, false⟩,
  ⟨0x208000c, 64, 0x100000, 1, 0, 0, 0, 0, 0, 0, false⟩,
  ⟨0x2080010, 64, 0x100000, 1, 0, 0, 0, 0, 0, 0, false⟩,
  ⟨0x2080100, 64, 0x100000, 16, 4, 0, 0, 0, 0, 0, false⟩,
  ⟨0x2080200, 64, 0x100000, 16, 8, 0, 0, 0, 0, 0, false⟩,
  ⟨0x2080204, 64, 0x100000, 16, 8, 0, 0, 0, 0, 0, false⟩,
  ⟨0x2000100, 64, 0x100000, 4, 0x10, 0xffe00f, 0, 0, 0, 0, false⟩,
  ⟨0x2000104, 64, 0x100000, 4, 0x10, 0xffff, 0, 0, 0, 0, false⟩]

/-- The registers of one block, by its number `offset / 0x10_0000`. -/
def blockRegs (b : Nat) : List RegDesc :=
  match b with
  | 0 => regsRst
  | 1 => regsClk
  | 2 => regsPwr
  | 3 => regsStw
  | 4 => regsSec
  | 5 => regsSeq
  | 6 => regsEdg
  | 7 => regsTxe
  | 8 => regsTrg
  | 9 => regsCap
  | 10 => regsAsr
  | 11 => regsXch
  | 12 => regsMem
  | 13 => regsAfb
  | 14 => regsPin
  | 15 => regsLnk
  | 16 => regsPci
  | 17 => regsPtm
  | 18 => regsNoc
  | 19 => regsTrc
  | 20 => regsHbc
  | 21 => regsPly
  | _ => if 32 ≤ b ∧ b < 96 then regsTile else []

/-- Does this register, or this array, have an element at the offset? -/
def RegDesc.covers (d : RegDesc) (off : Nat) : Bool :=
  decide (d.base ≤ off) &&
    (let r := off - d.base
     let i := if d.n1 = 1 then 0 else r / d.s1
     let q := if d.n1 = 1 then r else r % d.s1
     let j := if d.n2 = 1 then 0 else q / d.s2
     let z := if d.n2 = 1 then q else q % d.s2
     decide (i < d.n1) && decide (j < d.n2) && decide (z = 0))

/-- The register at an offset from the control base. -/
def regAt (off : Nat) : Option RegDesc := (blockRegs (off / 0x100000)).find? (fun d => d.covers off)

/-- What a register holds after reset. -/
def regReset (off : Nat) : Word :=
  match regAt off with
  | some d => BitVec.ofNat 32 d.reset
  | none => 0#32

end Sys2Proof.Machine
end

