-- ==== Sys2Proof/Machine/Sparse.lean ====
section
/-!
DEFINITION. Machine/Sparse.lean: sparse tables in one canonical form.

A table lists (key, value) pairs with strictly rising keys and no entry equal to what an unlisted key reads as, so
that equal tables are equal data.
-/

namespace Sys2Proof.Machine

/-- The value listed for a key. -/
def lookup {α : Type} : SMap α → Nat → Option α
  | [], _ => none
  | (k, v) :: m, i => if i = k then some v else lookup m i

/-- Take a key out. -/
def erase {α : Type} : SMap α → Nat → SMap α
  | [], _ => []
  | (k, v) :: m, i => if i = k then erase m i else (k, v) :: erase m i

/-- List a value under a key, keys rising. -/
def insert {α : Type} : SMap α → Nat → α → SMap α
  | [], i, v => [(i, v)]
  | (k, w) :: m, i, v =>
    if i < k then (i, v) :: (k, w) :: m
    else if i = k then (i, v) :: m
    else (k, w) :: insert m i v

/-- Read a key of a table whose unlisted keys read as `d`. -/
def sget {α : Type} (m : SMap α) (i : Nat) (d : α) : α := (lookup m i).getD d

/-- Write a key of a table whose unlisted keys read as `d`: writing `d` takes the entry out. -/
def sput {α : Type} [DecidableEq α] (m : SMap α) (i : Nat) (d v : α) : SMap α :=
  if v = d then erase m i else insert m i v

/-- Keys strictly rising, all of them at least `lo`. -/
def sortedFrom {α : Type} : Nat → SMap α → Bool
  | _, [] => true
  | lo, (k, _) :: m => decide (lo ≤ k) && sortedFrom (k + 1) m

/-- Keep the entries whose key satisfies `p`. -/
def keepKeys {α : Type} (p : Nat → Bool) : SMap α → SMap α
  | [] => []
  | (k, v) :: m => if p k then (k, v) :: keepKeys p m else keepKeys p m

end Sys2Proof.Machine
end

