-- ==== Sys2Proof/Machine/State.lean ====
section
/-!
DEFINITION. Machine/State.lean: everything the specification gives the LRN-M2 module, as plain data, and the state
after reset.

Each half holds its own copy of every block. Registers are held as `regs`, keyed by their offset from the control
base (R18); one that shows structured state (a run state, a counter of the edge scheduler) is computed from that
state when it is read (Machine/Bus.lean). Memories are one list of cells per half at the device addresses of R42.
-/

namespace Sys2Proof.Machine

/-! ## Boolean processors and exchange -/

/-- A write to a slot that may still be in flight (R66): the step-clock count of the writing step, the slot, and the
value the slot held before. -/
structure SlotWrite where
  time : Nat
  slot : Nat
  old  : Bool
  deriving DecidableEq, Repr

/-- A destination register of a switch (R119, R122): its value, the value before its latest write, and the
step-clock count of that write. A read in the writing step itself still sees `old`. -/
structure DstReg where
  val  : Bool
  old  : Bool
  time : Nat
  deriving DecidableEq, Repr

/-- A destination register that nothing has written. -/
def DstReg.zero : DstReg := ⟨false, false, 0⟩

/-- A value on its way over the half bridge (R123): the first step at which BRIN shows it, and the position of that step,
0xFFF where it falls in a boundary (R131). -/
structure BridgeWord where
  due  : Nat
  pos  : Nat
  tile : Nat
  k    : Nat
  val  : Bool
  deriving DecidableEq, Repr

/-- Exchange bits of a received RUN block (R156, R157): the 48-bit LSC at which its first step becomes readable, the steps
it covers, the group bit it begins at (R139), E, and its exchange bits. -/
structure LinkWindow where
  bundle : Nat
  lo     : Nat
  start  : Nat
  span   : Nat
  e      : Nat
  bits   : Nat
  deriving DecidableEq, Repr

/-- A bank access under way (R221, R222): its access step, the step at whose end a read's value arrives, the port
that strobed it, the word, and what it writes. -/
structure BankOp where
  at_   : Nat
  ret   : Nat
  tile  : Nat
  port  : Nat
  addr  : Nat
  bytes : Nat
  write : Option Nat
  deriving DecidableEq, Repr

/-- A bank read whose value has been read and not yet arrived (R221). -/
structure BankRet where
  ret  : Nat
  tile : Nat
  port : Nat
  data : DWord
  deriving DecidableEq, Repr

/-- An HBM read of the present cycle (R227, R228): the word it reads, and whether it has returned. -/
structure HbmRead where
  tile : Nat
  port : Nat
  addr : Nat
  data : DWord
  back : Bool
  /-- an earlier write of its own port in the cycle covers the whole word, so that memory is not read for it (R228) -/
  own  : Bool
  deriving DecidableEq, Repr

/-- A posted HBM write of the present cycle (R228, R229), and whether the controller has taken it. -/
structure HbmWrite where
  tile  : Nat
  port  : Nat
  addr  : Nat
  bytes : Nat
  data  : Nat
  taken : Bool
  deriving DecidableEq, Repr

/-- The static parts of a half: BPs and switches. -/
structure Array where
  /-- latest slot write of each BP, keyed by its global index (R66) -/
  infl     : SMap SlotWrite
  /-- destination registers, keyed tile × 2048 + DST (R119) -/
  dst      : SMap DstReg
  /-- BRIN registers, keyed tile × 16 + k (R118) -/
  brin     : SMap Bool
  bridge   : List BridgeWord
  /-- BROUT values that leave for the other half at the end of this step -/
  sent     : List BridgeWord
  /-- design input bits, keyed tile × 128 + bit (R121) -/
  din      : SMap Bool
  /-- design output bits as sampled at B7 of the last cycle (R30) -/
  dout     : SMap Bool
  /-- read-data registers of the memory ports, keyed tile × 4 + port (R216) -/
  rdata    : SMap DWord
  bankQ    : List BankOp
  bankRet  : List BankRet
  hbmRd    : List HbmRead
  hbmWr    : List HbmWrite
  /-- received link windows (R156) -/
  lin      : List LinkWindow
  /-- windows of bad RUN blocks whose fault falls to their first readable step (R131, R160) -/
  linBad   : List LinkWindow
  /-- trigger lines driven 1 in the present cycle (R63) -/
  trig     : SMap Bool
  /-- assertion events raised in the present cycle (R64) -/
  asrt     : SMap Bool
  /-- a BP-array fault to be reported at the next B8 (R96) -/
  bpFault  : Bool
  /-- an exchange fault to be reported at the next B8 (R132) -/
  xchFault : Bool
  /-- the pending correction of a tile's words and palette entries (R91), by its address + 1 -/
  pendBp   : SMap Nat
  /-- the pending correction of a tile switch's moves (R117), by its address + 1 -/
  pendSw   : SMap Nat
  /-- words whose check bits show an error: `false` a single-bit, `true` a double-bit error, by address -/
  ecc      : SMap (Option Bool)
  /-- BPs that already recorded UNSERVED_EXEC in this run (R83) -/
  unsrvd   : SMap Bool
  /-- channels that apply a slice at the present input commit, and that did at the previous one (R408) -/
  chHit    : SMap Bool
  chHot    : SMap Bool
  /-- output bits of each channel's last slice (R409) -/
  chLast   : SMap (Option Nat)
  deriving DecidableEq, Repr

/-! ## Tilmoyr link -/

/-- Bundle states (R149). -/
inductive BundleState where
  | off | lock | align | param | measure | active | packet | down | failed
  deriving DecidableEq, Repr

/-- A DATA packet kept for replay, or awaiting credit (R146, R276). -/
structure LinkPacket where
  chan    : Nat
  pseq    : Nat
  payload : Bytes
  deriving DecidableEq, Repr

/-- A packet to be sent (R145). -/
structure LinkTx where
  typ     : Nat
  chan    : Nat
  pseq    : Nat
  payload : Bytes
  deriving DecidableEq, Repr

/-- STALL, THROT and HALT of a block (R143, R158). -/
structure LinkFlags where
  stall : Bool
  throt : Bool
  halt  : Bool
  deriving DecidableEq, Repr

/-- The samples that a received RUN block carries (R158): the LSC at which it began, its span, and its flags. -/
structure LinkSample where
  q     : Nat
  span  : Nat
  flags : LinkFlags
  deriving DecidableEq, Repr

/-- One bundle (R138 to R162). Its configuration registers are in `regs`; `cfg` is the configuration it took at the
last 0-to-1 transition of EN (R165). -/
structure Bundle where
  st       : BundleState
  cfg      : Word
  frozen   : Nat
  effE     : Nat
  degraded : Bool
  laneFlt  : BitVec 8
  peer     : Word
  peerHalf : Bool
  peerRef  : Bool
  peerE    : Nat
  peerL8   : Bool
  dOwn     : Nat
  dPeer    : Nat
  trips    : Nat
  fPeer    : Nat
  good     : Nat
  /-- LSC_TX of the last good TRAIN block, and the LSC at its arrival (R151) -/
  echoTx   : Nat
  echoAt   : Nat
  /-- SEQ expected of the next block; none before the first (R160) -/
  seqRx    : Option Nat
  /-- PSEQ of the next DATA packet to send, and of the next expected (R146) -/
  pseqTx   : Nat
  pseqRx   : Nat
  replay   : List LinkPacket
  /-- packet bytes are discarded until PSTART = 1 (R146) -/
  resync   : Bool
  /-- packet bytes of the stream received and not yet taken as a packet (R145) -/
  stream   : Bytes
  /-- messages granted by the peer and messages sent, per link message port (R276) -/
  granted  : SMap Nat
  sent     : SMap Nat
  /-- the last 58 bits sent and received on each lane of the bundle (R142), and the invalid headers received in a row (R161) -/
  scrTx    : SMap Nat
  scrRx    : SMap Nat
  hdrBad   : SMap Nat
  /-- SEQ of the next block sent (R143), and the blocks sent since the last SKIP (R144) -/
  seqTx    : Nat
  blocks   : Nat
  /-- the 13-bit counter of TRAIN blocks (R151) -/
  tag      : Nat
  /-- the LSC at the first step of the block being sent, its exchange bits so far, and its samples (R157, R158) -/
  txAt     : Option Nat
  acc      : Nat
  smp      : LinkFlags
  /-- START and ABORT blocks to be sent: kind and body (R144) -/
  ctlQ     : List (Nat × Nat)
  /-- bytes of the packet being sent, and the packets after it (R145) -/
  txPart   : Bytes
  txq      : List LinkTx
  /-- samples received (R158) -/
  rxSmp    : List LinkSample
  /-- kind and START_LSC of the START or ABORT that the last blocks repeated (R144) -/
  lastCtl  : Option (Nat × Nat)
  deriving DecidableEq, Repr

/-- A bundle after reset. The lanes' scramblers begin at zero (log entry 85). -/
def Bundle.zero : Bundle :=
  { st := .off, cfg := 0#32, frozen := 0, effE := 0, degraded := false, laneFlt := 0#8, peer := 0#32,
    peerHalf := false, peerRef := false, peerE := 0, peerL8 := false, dOwn := 0, dPeer := 0, trips := 0, 
    fPeer := 0, good := 0, echoTx := 0, echoAt := 0, seqRx := none, pseqTx := 0, pseqRx := 0,
    replay := [], resync := false, stream := [], granted := [], sent := [], scrTx := [], scrRx := [], hdrBad := [],
    seqTx := 0, blocks := 0, tag := 0, txAt := none, acc := 0, smp := ⟨false, false, false⟩, ctlQ := [], txPart := [],
    txq := [], rxSmp := [], lastCtl := none }

/-! ## Run, edge scheduler, sequencer -/

/-- Run states (R186). -/
inductive RunState where
  | unloaded | ready | running | held | stopped | faulted | recovering
  deriving DecidableEq, Repr

/-- Run modes (R5, R34). -/
inductive Mode where
  | joined | paired | split
  deriving DecidableEq, Repr

/-- Sequencer execution states (R193). -/
inductive ExecState where
  | halted | exec | wait | fault
  deriving DecidableEq, Repr

/-- A dispatch of a tick (R176): the domain and the polarity of its due edge. -/
structure Due where
  dom     : Nat
  falling : Bool
  deriving DecidableEq, Repr

/-- A decided tick (R182): its virtual time, its dispatches in order, and how many queued external entries it takes. -/
structure Decision where
  vt  : DWord
  due : List Due
  ext : List Due
  deriving DecidableEq, Repr

/-- A pending edge of the sorted delay list (R174). -/
structure PendEdge where
  vt      : DWord
  falling : Bool
  deriving DecidableEq, Repr

/-- An entry of the external-edge queue (R180), with the step at which it was accepted (R181) and the JSEQ of its journal
record, if it has one. -/
structure ExtEdge where
  due  : Due
  step : Nat
  jseq : Option Nat
  deriving DecidableEq, Repr

/-- The fabric cycle in which the edge port last took an event (R180, R414): control cycles and steps counted then, events
taken and events queued in it. -/
structure EdgeCycle where
  ctl    : Nat
  steps  : Nat
  taken  : Nat
  queued : Nat
  deriving DecidableEq, Repr

/-- A hold or stop that has been requested (R190): its status code (R199), the event whose action it is, if any, the cycle
in which it was raised, and whether it is a stop. -/
structure HoldReq where
  code  : Nat
  event : Option Nat
  cyc   : DWord
  stop  : Bool
  /-- raised by the cycle channels alone, which release it by themselves (R411) -/
  auto  : Bool
  deriving DecidableEq, Repr

/-- The stall point at which a dispatch waits (R30, R31). -/
structure StallPoint where
  cur    : Due
  /-- the lowest cause that held when the stall conditions were last looked at (R184) -/
  cause  : Nat
  /-- the half's latest sample of its stall conditions (R31, R158): the lowest cause that held, if any -/
  sample : Option Nat
  /-- the throttle request and the stop or fault sampled with it (R158) -/
  thr    : Bool
  halt   : Bool
  /-- the LSC at which it was taken -/
  lsc    : Nat
  /-- linked evaluations made at this stall point -/
  evals  : Nat
  /-- stall steps inserted so far, and the mask of their causes (R533) -/
  steps  : Nat
  mask   : Nat
  /-- a checkpoint was asked for before this boundary's B0 and has not begun (R350) -/
  ckpt   : Bool
  deriving DecidableEq, Repr

/-- What a blocking sequencer instruction waits for (R196, R197); `wd` is the register that takes its result. -/
inductive Wait where
  | none
  | run (wd : BitVec 5) (op : Nat)
  | hold (wd : BitVec 5)
  | stop (wd : BitVec 5)
  | waite (wd : BitVec 5) (deadline : Option Nat)
  | restore (wd : BitVec 5)
  | fallow (wd : BitVec 5)
  | ckpt (wd : BitVec 5)
  | arm (wd : BitVec 5)
  | abrt (wd : BitVec 5)
  deriving DecidableEq, Repr

/-- Run control and edge scheduler of a half. -/
structure Run where
  state     : RunState
  /-- the mode of the current or last run (R5, R205) -/
  mode      : Mode
  /-- the mode of the loaded image, none while the half is not loaded (R110) -/
  loaded    : Option Mode
  /-- the mode of the image loaded before the present load (R281) -/
  prev      : Option Mode
  lead      : Bool
  /-- a half fault that has arisen and not yet taken effect (R238, R360) -/
  hfault    : Bool
  throttled : Bool
  /-- a throttle switch asked for (R185) -/
  thrReq    : Option Bool
  cyc       : DWord
  vt        : DWord
  startVt   : DWord
  /-- step-clock steps counted (R66) -/
  steps     : Nat
  /-- the half's link step counter (R148) -/
  lsc       : BitVec 48
  /-- the half takes the lead half's count, since a load for JOINED or PAIRED (R164) -/
  oneLsc    : Bool
  req       : Option HoldReq
  cond      : Option HoldReq
  holdCyc   : Option DWord
  holdVt    : Option DWord
  stall     : Option StallPoint
  /-- dispatches of the present tick that have not begun -/
  rest      : List Due
  decided   : Option Decision
  /-- the decision step of the latest decision -/
  decAt     : Nat
  /-- idle steps since the last tick, while there is nothing to dispatch (R183) -/
  idle      : Option Nat
  pend      : SMap (Option PendEdge)
  ext       : List ExtEdge
  /-- the fabric cycle in which the edge port last took an event (R180) -/
  edges     : Option EdgeCycle
  /-- LSC at which a linked start begins (R155) -/
  linkStart : Option Nat
  /-- a linked start that waits for START_LSC: the run state before it (R155) -/
  linkWait  : Option RunState
  linked    : Bool
  /-- the LSC from which a linked run sends RUN blocks: START_LSC − 1,024 (R155) -/
  linkSend  : Option Nat
  /-- the `LNK_TM_RUNCFG` that governs the linked run, as it stood at its start (R164) -/
  linkCfg   : Word
  /-- a linked run has stopped and no restore has taken place since (R161) -/
  linkEnd   : Bool
  /-- START_LSC of the start that was cancelled last (R155) -/
  aborted   : Option Nat
  /-- the next linked sample carries HALT (R160) -/
  linkHalt  : Bool
  /-- the loaded image is built for assured operation (R98) -/
  assured   : Bool
  deriving DecidableEq, Repr

/-- The sequencer of a half (R192). -/
structure Seq where
  w         : SMap DWord
  pc        : BitVec 14
  exec      : ExecState
  wait      : Wait
  progWords : Nat
  deriving DecidableEq, Repr

/-! ## Memory test -/

/-- The march test engine and the background tester (R241 to R250). -/
structure MemTest where
  /-- `MEM_MARCH_CTRL` as it stood at START -/
  ctrl   : Word
  /-- the next region of the background tester, by its number -/
  region : Nat
  /-- signature of each 4 KiB granule, when present -/
  sig    : SMap (Option Word)
  /-- granules written since their last signature -/
  wrote  : SMap Bool
  /-- the failed physical BPs of each cluster, one bit each, the spares bits 64 and 65 (R244) -/
  failed : SMap Nat
  /-- an ABORT was written and the row in progress has not ended (R245) -/
  ending : Bool
  /-- the flag that set `MEM_BGT_FAIL_LO`/`HI` is SIG_MISMATCH (R250) -/
  bySig  : Bool
  deriving DecidableEq, Repr

/-- The testers after reset. -/
def MemTest.zero : MemTest :=
  { ctrl := 0#32, region := 0, sig := [], wrote := [], failed := [], ending := false, bySig := false }

/-! ## Transaction engine -/

/-- A message from the design or from a link channel (R256, R275), with its OSEQ (0 on a link) and the cycle in which
it was completed. -/
structure Msg where
  data  : Bytes
  trunc : Bool
  oseq  : Nat
  cyc   : DWord
  deriving DecidableEq, Repr

/-- A message in a port's inbound buffer (R257): the transaction it belongs to, its bytes, whether it is the last of
the transaction, and the bytes already taken by the design. -/
structure InMsg where
  tid   : Nat
  data  : Bytes
  final : Bool
  pos   : Nat
  deriving DecidableEq, Repr

/-- A design message port (R253 to R257). Its binding is in `TXE_DP_CFG`, `TXE_DP_BUF` and `TXE_DP_MSG`. -/
structure Port where
  /-- complete messages not yet assigned, oldest first -/
  out   : List Msg
  /-- words taken of the message in progress -/
  part  : Bytes
  /-- taken words are discarded up to the next with OL = 1 (R256) -/
  skip  : Bool
  /-- inbound messages, oldest first -/
  inq   : List InMsg
  /-- ORDY and IV as committed (R254) -/
  ordy  : Bool
  iv    : Bool
  oseq  : Nat
  /-- the word presented was put before the journal and is not yet confirmed (R273) -/
  await : Bool
  deriving DecidableEq, Repr

/-- A port that the image does not declare. -/
def Port.zero : Port :=
  { out := [], part := [], skip := false, inq := [], ordy := false, iv := false, oseq := 0, await := false }

/-- A template record (R280). -/
structure Tmpl where
  handler  : Nat
  prio     : Nat
  standing : Bool
  toNs     : Bool
  seqEvent : Bool
  timeout  : Nat
  src      : Nat
  dst      : Nat
  cq       : Nat
  list     : List Nat
  lens     : List Nat
  count    : Nat
  deriving DecidableEq, Repr

/-- An H operand (R259, R272): what the SQ entry gives, its payload once read, and its acceptance sequence number once
accepted. -/
structure HOp where
  sq      : Nat
  ctag    : Word
  len     : Nat
  addr    : Nat
  inline  : Option Bytes
  payload : Bytes
  seq     : Option Nat
  deriving DecidableEq, Repr

/-- A transaction in the matching store (R263). -/
structure Txn where
  t        : Tmpl
  /-- the queue pair whose entry created it -/
  maker    : Option Nat
  ctag     : Word
  /-- creation order (R265) -/
  born     : Nat
  h        : Option HOp
  hq       : List HOp
  /-- D messages claimed, in list order -/
  d        : List Msg
  c        : Bool
  k        : Bool
  dep      : Option Nat
  ready    : Bool
  running  : Bool
  /-- cycle of the commit point (R271) -/
  commit   : Option DWord
  /-- user cycles counted (R270) -/
  age      : Nat
  /-- a real-time expiry that takes effect at the next input commit (R270) -/
  expiring : Bool
  /-- payload bytes sent, messages handled, bytes written, data cut -/
  sent     : Nat
  msgs     : Nat
  wrote    : Nat
  cut      : Bool
  oseq1    : Nat
  /-- first message bytes of a NOTIFY (R261) -/
  head     : Nat
  /-- host-memory writes of a replayed transaction, until its entry is written or suppressed (R359) -/
  kept     : List (Nat × Bytes)
  /-- design port and OSEQ of the messages it delivered (R357) -/
  deliv    : List (Nat × Nat)
  /-- the outcome reached and not yet reported, with its cycle -/
  outcome  : Option (Nat × DWord)
  /-- PSEQ of its link packet while unacknowledged, and the bundle -/
  pseq     : Option (Nat × Nat)
  retired  : Bool
  /-- it was made between B9 and B13 of the boundary in progress, whose user cycle its wait does not count (R270) -/
  late     : Bool
  deriving DecidableEq, Repr

/-- A CQ entry (R261). -/
structure CqEntry where
  tid    : Nat
  status : Nat
  sq     : Nat
  ctag   : Word
  len    : Nat
  seq    : Nat
  port   : Nat
  cyc    : DWord
  deriving DecidableEq, Repr

/-- An SQ entry fetched with assured operation active and not yet taken (R342, R358): its queue, its position, its
bytes, the TID it is to have, and its payload once read. -/
structure StagedEntry where
  q       : Nat
  pos     : Nat
  entry   : Bytes
  tid     : Nat
  /-- the operand's bytes; none while they are still to be read -/
  payload : Option Bytes
  /-- its journal record has begun -/
  sent    : Bool
  deriving DecidableEq, Repr

/-- The transaction engine of a half. -/
structure Txe where
  tmpl    : SMap (Option Tmpl)
  port    : SMap Port
  txn     : SMap (Option Txn)
  /-- TIDs in the order in which they became ready -/
  readyQ  : List Nat
  /-- TIDs in the order in which they reached their outcome -/
  doneQ   : List Nat
  staged  : List StagedEntry
  /-- HEAD of each CQ as the engine has taken it (R261, R342) -/
  cqHead  : SMap Nat
  /-- queues whose refused doorbell waits for WAKE_IRQ: code and tail (R260) -/
  wake    : SMap (Option (Nat × Nat))
  /-- creation count and acceptance sequence -/
  created : Nat
  aseq    : Nat
  /-- received messages of a link channel, and packets granted and received (R276) -/
  lchRx   : SMap (List Msg)
  lchGr   : SMap Nat
  lchCnt  : SMap Nat
  /-- messages for the steward (CHAN 0) -/
  stwRx   : List Bytes
  /-- a boundary is between B9 and B13 -/
  inB     : Bool
  /-- entries of transactions that a load ended, whose CQ has had no room yet (R281) -/
  lateCq  : List (Nat × CqEntry)
  /-- host-memory writes held until the signature comparison of their cycle (R33, R274) -/
  heldOut : List (DWord × Nat × Bytes × Option Nat)
  deriving DecidableEq, Repr

/-- The transaction engine after reset. -/
def Txe.zero : Txe :=
  { inB := false, lateCq := []
    tmpl := [], port := [], txn := [], readyQ := [], doneQ := [], staged := [], cqHead := [], wake := [], created := 0, aseq := 0
    lchRx := [], lchGr := [], lchCnt := [],
    stwRx := [], heldOut := [] }

/-! ## Trigger, capture and playback -/

/-- Engine states (R292). -/
inductive EngState where
  | idle | pending | active | triggered | done
  deriving DecidableEq, Repr

/-- An external trigger sample (R302): levels, transition latches and PTP-reached flags. -/
structure XtSample where
  level : BitVec 8
  edge  : BitVec 8
  ptp   : BitVec 4
  deriving DecidableEq, Repr

/-- An arc of a trigger state (R298). -/
structure Arc where
  a    : Nat
  b    : Nat
  c    : Nat
  d    : Nat
  tt   : Nat
  next : Nat
  acts : Nat
  deriving DecidableEq, Repr

/-- A TRIGGER descriptor (R297). -/
structure TrgDesc where
  init    : Nat
  domain  : Nat
  every   : Bool
  cnt0    : Nat
  cnt1    : Nat
  pulseNs : Nat
  cycAt   : Nat
  vtAt    : Nat
  ptpSec  : Nat
  ptpNs   : Nat
  states  : List (Arc × Arc)
  deriving DecidableEq, Repr

/-- An XO action ordered and not yet at the function (R303): 0 set, 1 clear, 2 pulse, and whether it belongs to the
firing arc of a capture's trigger. -/
structure XoOp where
  op   : Nat
  /-- the cycle of the evaluation, where its arc fires (R318) -/
  fire : Option DWord
  deriving DecidableEq, Repr

/-- An abort that has arrived and not yet taken effect (R295); `seq` says that ABRT waits for it. -/
structure AbortReq where
  seq : Bool
  deriving DecidableEq, Repr

/-- A trigger engine. -/
structure TrgEng where
  st     : EngState
  desc   : Option TrgDesc
  tstate : Nat
  cnt0   : Nat
  cnt1   : Nat
  fired  : Bool
  abort  : Option AbortReq
  /-- the sample taken at B0 of the last boundary at which the engine evaluated, and the one it used last (R302) -/
  prev   : Option XtSample
  used   : Option XtSample
  xo     : Bool
  xoQ    : List XoOp
  /-- a pulse is in progress -/
  pulse  : Bool
  /-- PTP time of the latest XO action (R303) -/
  xoTime : PtpTime
  deriving DecidableEq, Repr

/-- A CAPTURE descriptor with the lists it names (R305, R311, R317). -/
structure CapDesc where
  idx      : Nat
  mode     : Nat
  domain   : Nat
  trigEng  : Nat
  flags    : Nat
  keyLog2  : Nat
  interval : Nat
  pre      : Nat
  post     : Nat
  regBase  : Nat
  regSize  : Nat
  spBase   : Nat
  spSize   : Nat
  tileMask : Nat
  sigs     : List Nat
  reds     : List (Nat × Nat × Nat)
  deriving DecidableEq, Repr

/-- Where a formed record goes (R307, R320). -/
inductive RecDest where
  /-- logical byte `off` of the region at `base`, striped or not -/
  | region (base off : Nat) (stripe : Bool)
  /-- byte `off` of an HBM spill region -/
  | spill (base off : Nat) (stripe : Bool)
  /-- byte `off` of the host ring of `size` bytes at bus address `base` -/
  | host (base off size : Nat)
  deriving DecidableEq, Repr

/-- A record formed and not yet written (R321). -/
structure StagedRec where
  dest  : RecDest
  bytes : Bytes
  /-- a TRIGGER record whose XO time is not yet known (R318) -/
  wait  : Bool
  deriving DecidableEq, Repr

/-- A record retained in the ring: offset, length, the B8 that formed it, and whether it is a data record. -/
structure RingRec where
  off  : Nat
  len  : Nat
  b8   : Nat
  data : Bool
  deriving DecidableEq, Repr

/-- A trigger taken whose TRIGGER record is not yet formed (R318). -/
structure TrigTaken where
  cyc    : DWord
  vt     : DWord
  ptp    : PtpTime
  eng    : Nat
  before : Nat
  after  : Nat
  arc    : Nat
  xo     : Bool
  /-- when the XO action took effect, once it has -/
  xoAt   : Option PtpTime
  deriving DecidableEq, Repr

/-- A capture engine. -/
structure CapEng where
  st      : EngState
  desc    : Option CapDesc
  preEff  : Nat
  postEff : Nat
  abort   : Option AbortReq
  /-- cycles of the domain since the first (R316) -/
  j       : Nat
  b8      : Nat
  rseq    : Nat
  wptr    : Nat
  ring    : List RingRec
  /-- the B8 from which ring records are protected, once the trigger is taken (R320) -/
  prot    : Option Nat
  toSpill : Bool
  spill   : Nat
  staged  : List StagedRec
  trig    : Option TrigTaken
  trigCyc : Option DWord
  /-- data records due from the trigger on, formed or missed -/
  posted  : Nat
  formed  : Nat
  /-- the B8 of the first post-trigger record -/
  trigB8  : Nat
  /-- cycles missed since the last record, the first of them with its VT and PTP time, and in all (R321) -/
  missed  : Nat
  missAt  : Option (DWord × DWord × PtpTime)
  gaps    : Nat
  force   : Bool
  /-- the canvas vectors of the previous data record, by tile -/
  canvas  : List (Nat × List Bool)
  /-- MARK records ordered and not yet formed: trigger engine, state after, and the marked cycle -/
  marks   : List (Nat × Nat × DWord × DWord × PtpTime)
  /-- cycles of the present interval: cycle, VT, and the signals, none for a missed cycle (R317) -/
  env     : List (DWord × DWord × Option (List Bool))
  /-- the last recorded cycle before the interval -/
  envPrev : Option (List Bool)
  hsTail  : Nat
  /-- tail including records not yet written -/
  hsForm  : Nat
  /-- bytes of host-stream records that a replay does not write again (R325) -/
  hsSkip  : Nat
  deriving DecidableEq, Repr

/-- A PLAYBACK descriptor (R326): segments are tile, count, first bit. -/
structure PlyDesc where
  held    : Bool
  domain  : Nat
  width   : Nat
  base    : Nat
  size    : Nat
  vectors : Nat
  loops   : Nat
  segs    : List (Nat × Nat × Nat)
  deriving DecidableEq, Repr

/-- A playback engine: the vector due, the commits left of its HOLD, passes completed, vectors in the buffer. -/
structure PlyEng where
  st    : EngState
  desc  : Option PlyDesc
  abort : Option AbortReq
  v     : Nat
  hold  : Nat
  pass  : Nat
  count : Nat
  /-- prefetched vectors, oldest first: HOLD and the vector's bits -/
  buf   : List (Nat × Nat)
  /-- the next vector to prefetch and its pass -/
  nextV : Nat
  nextP : Nat
  /-- commits of the playback data still owed, for the first commit after arming -/
  started : Bool
  deriving DecidableEq, Repr

/-- The engines of a half. -/
structure Engines where
  trg     : SMap TrgEng
  cap     : SMap CapEng
  ply     : SMap PlyEng
  /-- arm requests being worked on: kind × 4 + engine → descriptor index + 1 and whether the sequencer waits -/
  arming  : SMap (Option (Nat × Bool))
  /-- events to be raised at the next B8 (R295, R328) -/
  evB8    : List Nat
  /-- levels and transition latches of TRG_XT0 to TRG_XT7 (R302) -/
  xtLevel : BitVec 8
  xtLatch : BitVec 8
  /-- the newest sample accepted with assured operation active (R302) -/
  xtNew   : Option XtSample
  deriving DecidableEq, Repr

/-- A trigger engine that was never armed. -/
def TrgEng.zero : TrgEng :=
  { st := .idle, desc := none, tstate := 0, cnt0 := 0, cnt1 := 0, fired := false, abort := none, prev := none,
    used := none, xo := false, xoQ := [], pulse := false, xoTime := ⟨0, 0, 0⟩ }

/-- A capture engine that was never armed. -/
def CapEng.zero : CapEng :=
  { st := .idle, desc := none, preEff := 0, postEff := 0, abort := none, j := 0, b8 := 0, rseq := 0, wptr := 0x8000,
    ring := [], prot := none, toSpill := false, spill := 0, staged := [], trig := none, trigCyc := none, posted := 0, formed := 0, trigB8 := 0,
    missed := 0, missAt := none, gaps := 0, force := false, canvas := [], marks := [], env := [], envPrev := none, 
    hsTail := 0, hsForm := 0, hsSkip := 0 }

/-- A playback engine that was never armed. -/
def PlyEng.zero : PlyEng :=
  { st := .idle, desc := none, abort := none, v := 0, hold := 0, pass := 0, count := 0, buf := [], nextV := 0, nextP := 0,
    started := false }

/-- The engines after reset. -/
def Engines.zero : Engines :=
  { trg := [], cap := [], ply := [], arming := [], evB8 := [], xtLevel := 0#8, xtLatch := 0#8, xtNew := none }

/-! ## Assured operation -/

/-- The body of a journal record (R347). -/
inductive JBody where
  | sqEntry (q aseq pos tid outcome : Nat) (entry payload : Bytes)
  | engine (sub value : Nat)
  | extEdge (falling : Bool)
  | dispatch (falling : Bool) (vt : DWord)
  | xtSample (s : XtSample)
  | inputBits (kind tile first count bits : Nat)
  /-- an ARM carries the entries of its descriptor and of the lists it names, with their table indices -/
  | control (action index : Nat) (seq : Bool) (parts : List (Nat × Bytes))
  | defer (jseq : Nat)
  | mark (gen : Nat) (start : Bool)
  /-- the bytes left before the end of the ring (R346) -/
  | pad (bytes : Nat)
  deriving DecidableEq, Repr

/-- A journal record (R346): its stamp, the domain at whose boundary it takes effect if it has one, the earliest step
of that boundary's B9 (R343), and whether it has been confirmed and has taken effect. -/
structure JRec where
  jseq    : Nat
  src     : Nat
  cyc     : DWord
  dom     : Option Nat
  minStep : Nat
  conf    : Bool
  done    : Bool
  /-- to be applied again at its stamp, in replay (R361) -/
  redo    : Bool
  /-- a run-control action taken between ticks, while the run was held there -/
  idle    : Bool
  body    : JBody
  deriving DecidableEq, Repr

/-- A generation (R351): the design state of a half at a checkpoint. -/
structure Snap where
  gen  : Nat
  cyc  : DWord
  vt   : DWord
  pend : SMap (Option PendEdge)
  ext  : List ExtEdge
  dec  : Option Decision
  stall : Option StallPoint
  rest  : List Due
  ar   : Array
  mem  : List Host.Cell
  regs : SMap Word
  txe  : Txe
  eng  : Engines
  cseq : SMap Nat
  /-- JSEQ of its MARK -/
  mark : Nat
  /-- JSEQs of the records that had taken effect when it was taken -/
  jdone : List Nat
  deriving DecidableEq, Repr

/-- STATE of `ASR_STATUS` (R375). -/
inductive AsrState where
  | off | starting | active | recovering | diagnosing | suspended
  deriving DecidableEq, Repr

/-- Where a checkpoint in progress stands (R352). -/
inductive CkptPhase where
  /-- asked for, to begin at the next stall point -/
  | asked
  /-- copying: the stall point is held -/
  | copying
  /-- copied, the MARK written: the copies are verified, then committed -/
  | verifying
  deriving DecidableEq, Repr

/-- Assured operation of a half. -/
structure Asr where
  st      : AsrState
  /-- a resumed run continues this activity (R341) -/
  active  : Bool
  gens    : List Snap
  journal : List JRec
  jseq    : Nat
  /-- where the next record goes in the ring (R346) -/
  jpos    : Nat
  /-- inputs not accepted, whose records wait for room or for the end of a recovery, oldest first (R348, R361) -/
  waiting : List JRec
  /-- EN of the transaction engine and the half's acceptance of work as its input commits found them, each with the first
  cycle of which it held, newest first (R254, R272, R273) -/
  gates   : List (DWord × Bool × Bool)
  /-- words of playback patterns whose error began a recovery, and whether its replay has read one again (R604) -/
  patBad   : List Nat
  patAgain : Bool
  phase   : Option CkptPhase
  fresh   : Option Snap
  /-- CSEQ of the last entry of each CQ (R357) -/
  cseq    : SMap Nat
  /-- messages delivered and not yet behind the horizon: CQ, CSEQ, design port, OSEQ (R357) -/
  deliv   : List (Nat × Nat × Nat × Nat)
  /-- REPLAY_END while replaying -/
  replay  : Option DWord
  /-- the episode of a mismatch: its cycle (R365) -/
  episode : Option DWord
  /-- the steward still has to rewrite stores before the restore (R360) -/
  rewrite : Bool
  /-- the mirrored generations and journal of the partner (R345, R352) -/
  mGens   : List Snap
  mJrnl   : List JRec
  /-- the other half's transaction-engine registers and horizons as mirrored (R274, R357, R368) -/
  mRegs   : SMap Word
  /-- HEADER_CRC and BUILD_ID of the other half's image, mirrored with them (R6, R370) -/
  mImg    : Word × DWord
  /-- an export or import under way: operation, PARTNER -/
  cmd     : Option (Nat × Bool)
  /-- the mismatch of the episode has recurred: diagnosis is due (R365) -/
  recur   : Bool
  /-- the generation that a restore in progress brings back, asked for by RESTORE (R363) or by an import -/
  restoring : Option Nat
  /-- an import has put the queues back, and no run has started since (R372) -/
  landed  : Bool
  /-- the survivor of a lost or retired half is to take over (R368) -/
  taking  : Bool
  /-- the cycle at whose boundary a checkpoint was last begun (R350) -/
  ckptCyc : Option DWord
  /-- signatures of the last B8 await comparison (R365) -/
  sigs    : Option (DWord × List Word)
  /-- heartbeats sent on the bridge and the sideband -/
  beats   : Nat
  sbBeats : Nat
  /-- sideband heartbeats received in a row since SIDEBAND_LOST -/
  sbBack  : Nat
  sbLost  : Bool
  /-- HEADER_CRC and BUILD_ID of the loaded image (R370) -/
  imgCrc  : Word
  buildId : DWord
  /-- where the loaded image lies staged in HBM: byte offset and length (R360, R567) -/
  image   : Nat × Nat
  /-- bytes of the last export (R369) -/
  xbytes  : Bytes
  deriving DecidableEq, Repr

/-- Assured operation after reset. -/
def Asr.zero : Asr :=
  { st := .off, active := false, gens := [], journal := [], jseq := 0, jpos := 0, waiting := [], gates := []
    patBad := [], patAgain := false, phase := none, fresh := none, cseq := [], deliv := [],
    replay := none, episode := none, rewrite := false, mGens := [], mJrnl := [], mRegs := [], mImg := (0#32, 0#64), cmd := none
    recur := false, restoring := none, landed := false, taking := false, ckptCyc := none,
    sigs := none, beats := 0, sbBeats := 0, sbBack := 0, sbLost := false, imgCrc := 0#32, buildId := 0#64, image := (0, 0), xbytes := [] }

/-! ## Adapter fabric -/

/-- A fabric load in progress (R395 to R400): where the bitstream is read (the embedded flash or HBM, a byte offset), a
partial load, automatic release asked for in `AFB_LOAD_CFG`, and the region's columns as a 96-bit mask. -/
structure FabLoad where
  flash : Bool
  addr  : Nat
  part  : Bool
  auto  : Bool
  cols  : Nat
  deriving DecidableEq, Repr

/-- A cycle channel (R406 to R413). Its declaration is in `AFB_CH_CFG` and `AFB_CH_BITS`. -/
structure Chan where
  /-- slices pushed and not yet applied or journalled, oldest first -/
  queue : List Nat
  /-- SP7 byte offset of the output ring -/
  off   : Nat
  /-- slices written and not yet acknowledged: CYCLE and WSEQ, oldest first -/
  ring  : List (DWord × Nat)
  /-- one above the number of the last acknowledged slice (R413) -/
  base  : Nat
  deriving DecidableEq, Repr

/-- A channel that the image does not declare. -/
def Chan.zero : Chan := { queue := [], off := 0, ring := [], base := 0 }

/-- A serial controller (R403): its two FIFOs of 64 bytes, and the frame or transfer in progress. -/
structure Serial where
  tx   : List Byte
  rx   : List Byte
  /-- part of the present bit, in 1/625,000,000 of it -/
  acc  : Nat
  /-- what the output pins still show, oldest first: two levels, and whether the input is sampled -/
  send : List (Bool × Bool × Bool)
  /-- bits received of the present frame or transfer, and the part of the present bit -/
  recv : Option (List Bool)
  racc : Nat
  deriving DecidableEq, Repr

/-- A controller at rest. -/
def Serial.zero : Serial := { tx := [], rx := [], acc := 0, send := [], recv := none, racc := 0 }

/-- The fabric port and PCS of a lane (R462): a word is 64 raw bits, 32 data bits with 4 K flags and (received) 4 code-error
flags, or 8 octets with 8 control flags. -/
structure LanePort where
  /-- a word taken from the fabric and not yet sent -/
  word : Option (BitVec 72)
  /-- part of the present word sent, in quarters of a line bit -/
  acc  : Nat
  /-- the word sent last -/
  last : BitVec 72
  /-- the receive port in this fabric cycle -/
  rx   : Option (BitVec 72)
  deriving DecidableEq, Repr

/-- A lane that has sent nothing. -/
def LanePort.zero : LanePort := { word := none, acc := 0, last := 0#72, rx := none }

/-- What a lane transmits in a word's time (R462, R467): a word of the fabric, its idle, the pattern PRBS names, or what it
receives. -/
inductive LaneTx where
  | word (w : BitVec 72)
  | idle
  | prbs (p : BitVec 2)
  | relayed
  deriving DecidableEq, Repr

/-- What the cells, RAM blocks, nets, long lines and ports of the fabric hold (R382 to R392, R403, R462). -/
structure Cells where
  /-- F, G, SUM, QA and QB of each cell, bits 0 to 4; a held column's stay as they were (R397) -/
  sig   : SMap (BitVec 5)
  /-- last level of the clock of each cell and, from 98,304 up, of each RAM port -/
  clk   : SMap Bool
  /-- contents of the RAM blocks written since their columns were held -/
  ram   : SMap (Option (BitVec 32768))
  /-- read data of each RAM port: of the array, and at the output -/
  rout  : SMap (Option (Nat × Nat))
  /-- value of each long line, what it was at the last edge of the base clock, and the lines in contention (R388) -/
  line  : BitVec 64
  kept  : BitVec 64
  fight : BitVec 64
  /-- levels of GCK0 to GCK15, and the phase of each oscillator in 1/625,000,000,000,000 of its period -/
  nets  : BitVec 16
  osc   : SMap Nat
  /-- columns whose release has been seen, and those that leave hold: columns and rising edges of each net since (R398) -/
  seen  : Nat
  leave : List (Nat × SMap Nat)
  /-- half-cycles of the base clock until flip-flops obey their clocks after GSR (R392) -/
  quiet : Nat
  ser   : SMap Serial
  lane  : SMap LanePort
  deriving DecidableEq, Repr

/-- A fabric in which nothing has happened. -/
def Cells.zero : Cells :=
  { sig := [], clk := [], ram := [], rout := [], line := 0#64, kept := 0#64, fight := 0#64, nets := 0#16, osc := [], seen := 0,
    leave := [], quiet := 0, ser := [], lane := [] }

/-- The adapter fabric of a half. Column sets are 96-bit masks. -/
structure Fab where
  load    : Option FabLoad
  /-- configuration frames written, keyed TYPE × 2^24 + COLUMN × 2^16 + MINOR; an unlisted frame is all zero -/
  frames  : SMap Bytes
  /-- DB_ID of the last bitstream that loaded, and what its cells hold -/
  db      : Nat
  cell    : Cells
  /-- columns whose outputs are enabled (stage 1 of R398) -/
  outs    : Nat
  /-- columns whose RAM writes, strobes, pushes and requests are on (stage 2) -/
  live    : Nat
  /-- columns whose flip-flops are released (stage 3) -/
  ffs     : Nat
  /-- the release in progress: its next stage and its columns -/
  rel     : Option (Nat × Nat)
  gsr     : Bool
  /-- drivers of each long line disabled by the contention detector, as a mask of sites (R388) -/
  llOff   : SMap Nat
  /-- embedded flash: words programmed since their sector was erased, and the erase count of each sector (R402) -/
  flash   : SMap (Option DWord)
  erased  : SMap Nat
  /-- flash words with an uncorrectable error -/
  flBad   : SMap Bool
  /-- the flash command in progress: OP and word -/
  flCmd   : Option (Nat × Nat)
  chan    : SMap Chan
  /-- output slices that await the signature comparison of their cycle (R409): cycle, SP7 address, bytes -/
  held    : List (DWord × Nat × Bytes)
  /-- the channels that raised the present hold (R411) -/
  full    : List Nat
  deriving DecidableEq, Repr

/-- The fabric after reset: BLANK. -/
def Fab.zero : Fab :=
  { load := none, frames := [], db := 0, cell := Cells.zero, outs := 0, live := 0, ffs := 0, rel := none, gsr := false, llOff := [], flash := [],
    erased := [], flBad := [], flCmd := none, chan := [], held := [],
    full := [] }

/-! ## Pins -/

/-- Pins of a half. Synchronised and debounced levels, latches and selections are in `regs`. -/
structure Pins where
  /-- levels on the pads from outside, which show in `PIN_PAD` while the bank has settled (R430) -/
  pad    : BitVec 64
  /-- value that each input function last delivered (R439), by function; an unlisted one its idle value -/
  inp    : SMap (Option Bool)
  /-- values and enables that fabric logic and serial controllers present, by output function -/
  outp   : SMap (Bool × Bool)
  /-- DPOUT values (R443), and those that await their signature comparison (R444) -/
  dpout  : BitVec 64
  dpWait : List (DWord × BitVec 64)
  /-- the DPIN sample of the present boundary -/
  dpin   : Option (BitVec 64)
  /-- boundary scan: the update register, and whether EXTEST drives the pads (R593) -/
  scan   : BitVec 64
  scanEn : BitVec 64
  extest : Bool
  deriving DecidableEq, Repr

/-- The pins after reset. -/
def Pins.zero : Pins :=
  { pad := 0#64, inp := [], outp := [], dpout := 0#64, dpWait := [], dpin := none, scan := 0#64, scanEn := 0#64,
    extest := false }

/-! ## PCIe endpoint -/

/-- The endpoint core of a half (R473 to R482). BME, MSIX_EN, D3HOT and DL_UP are bits of `PCI_STATUS`. -/
structure Pci where
  /-- the MSI-X table as 32-bit words, keyed vector × 4 + word -/
  mxTab    : SMap Word
  /-- pending bits of the MSI-X vectors -/
  mxPend   : SMap Bool
  /-- messages raised in fallow, held until its exit (R556), oldest first -/
  late     : List Nat
  funcMask : Bool
  /-- the link is down in the sense of R479 -/
  down     : Bool
  /-- held writes and the messages ordered behind them, oldest first (R479) -/
  held     : List (Nat × Bytes × Option Nat)
  /-- Unsupported Request and Completer Abort logged in AER (R475) -/
  aerUr    : Bool
  aerCa    : Bool
  deriving DecidableEq, Repr

/-- The endpoint core after reset. -/
def Pci.zero : Pci :=
  { mxTab := [], mxPend := [], late := [], funcMask := false, down := true, held := [], aerUr := false, aerCa := false }

/-! ## Network time -/

/-- A PTP domain (R496 to R501). Its state, master identity and counts show in registers. Times are in units of
2^-17 ns, rates in units of 2^-36 ppb. -/
structure PtpDom where
  /-- 0 OFF, 1 LISTEN, 2 MEASURE, 3 RATE_EST, 4 TRACKING, 5 LOCKED -/
  st      : Nat
  /-- the master's port number; the clock identity is in `PTM_DOM_CUR` -/
  master  : Option (BitVec 64 × BitVec 16)
  /-- a two-step Sync that awaits its Follow_Up: sequenceId and t2 -/
  sync    : Option (BitVec 16 × Int)
  /-- t1 and t2 of the newest complete Sync -/
  last    : Option (Int × Int)
  logSync : Int
  /-- the Delay_Req outstanding: sequenceId and t3 -/
  req     : Option (BitVec 16 × Int)
  seqId   : BitVec 16
  /-- mean path delay -/
  delay   : Option Int
  /-- a Delay_Resp has arrived within the last 16 intervals (R500) -/
  fresh   : Bool
  rInt    : Int
  /-- the Syncs collected for the rate estimate, oldest first (R498) -/
  est     : List (Int × Int)
  good    : Nat
  bad     : Nat
  deriving DecidableEq, Repr

/-- A domain with no master. -/
def PtpDom.zero : PtpDom :=
  { st := 0, master := none, sync := none, last := none, logSync := 0, req := none, seqId := 0#16, delay := none, fresh := false,
    rInt := 0, est := [], good := 0, bad := 0 }

/-- A timed pulse output (R504, R505); STATE and CODE are in `PTM_TPO_STAT`. Times are in ns. -/
structure Tpo where
  start  : Nat
  /-- pulses that have begun, and whether one is in progress -/
  n      : Nat
  high   : Bool
  disarm : Bool
  deriving DecidableEq, Repr

/-- A pulse output after reset. -/
def Tpo.zero : Tpo := { start := 0, n := 0, high := false, disarm := false }

/-- The time block of a half. -/
structure Ptm where
  /-- the PHC in units of 2^-32 ns, and the remainder that R488 carries, in parts of 40960 × 10^9 of a unit -/
  time   : Nat
  rem    : Nat
  dom    : SMap PtpDom
  /-- the active domain is in HOLDOVER (R501) -/
  holdover : Bool
  /-- HOLDOVER was entered from LOCKED and HOLD_S has not passed (R499) -/
  hold   : Bool
  tpo    : SMap Tpo
  /-- capture queues: time and rising edge, oldest first -/
  tcap   : SMap (List (PtpTime × Bool))
  /-- transmit stamps: messageType, sequenceId and time -/
  txts   : List (Nat × Nat × PtpTime)
  /-- the sample for `PTM_DSN` of the present boundary -/
  sample : Option (BitVec 96)
  deriving DecidableEq, Repr

/-- The time block after reset. -/
def Ptm.zero : Ptm := { time := 0, rem := 0, dom := [], holdover := false, hold := false, tpo := [], tcap := [], txts := [], sample := none }

/-! ## Trace -/

/-- The trace funnel of a half (R529 to R541). MSTATE, ON, WPTR and the counts are in `regs`. -/
structure Trc where
  /-- time-clock cycles since reset -/
  tclk  : Nat
  /-- packets in each source's FIFO, oldest first, as words -/
  fifo  : SMap (List (List Word))
  /-- packets a source has dropped since its last LOST, and the cycle of the first -/
  lost  : SMap (Option (Nat × Nat))
  /-- the cycle of each source's last packet -/
  last  : SMap (Option Nat)
  /-- the source after which the round robin goes on, and words still on their way to the sink -/
  turn  : Nat
  busy  : Nat
  /-- words of the block in the making, after its header, and FIRST -/
  block : List Word
  first : Nat
  /-- words sent on the port since the last ALIGN -/
  port  : Nat
  /-- the words at the port, the first of them under way with `edge` of its nibbles sent (R537) -/
  portq : List Word
  edge  : Nat
  /-- cycles of the time clock since the last edge of TRC_CLK, and the levels of TRC_CLK and TRC_D0 to TRC_D3 -/
  pcnt  : Nat
  pclk  : Bool
  pdata : BitVec 4
  /-- the events latched since the event machine's last evaluation (R539) -/
  evts  : List Nat
  /-- the STW_LOG sequence in the making -/
  stw   : List Word
  deriving DecidableEq, Repr

/-- The funnel after reset. -/
def Trc.zero : Trc :=
  { tclk := 0, fifo := [], lost := [], last := [], turn := 0, busy := 0, block := [], first := 0, port := 0, portq := [], edge := 0, pcnt := 0
    pclk := false, pdata := 0#4, evts := [], stw := [] }

/-! ## Supply, reset, mailbox -/

/-- Where a power-fail sequence stands (R548). -/
inductive PowerFail where
  /-- PWR_FAIL_N asserted, work no longer accepted, the stop record being written -/
  | stopping
  /-- the record is complete and the Module resets are asserted -/
  | held
  deriving DecidableEq, Repr

/-- Who waits for the end of a fallow (R555). -/
inductive FallowBy where
  | seq
  | mbx (k : Nat)
  deriving DecidableEq, Repr

/-- Supply, clocks, reset and mailbox state of a half that no register holds. -/
structure Sys where
  /-- reset sources that are asserted, as a mask in the bit order of `RST_CAUSE` -/
  asserted : Nat
  /-- a release sequence is in progress, and it is that of a POR -/
  booting  : Bool
  por      : Bool
  fail     : Option PowerFail
  /-- samples in a row at or above 108.0 °C (R551) -/
  hot      : Nat
  fallow   : Option FallowBy
  /-- wake causes that have arisen, as a mask by code (R557) -/
  wake     : Nat
  /-- 40 ns ticks of the present fallow -/
  slept    : Nat
  /-- mailbox instances whose command waits, in order of arrival (R585) -/
  mbx      : List Nat
  /-- the image load in progress: mailbox instance, mode, byte offset, length (R567) -/
  load     : Option (Nat × Nat × Nat × Nat)
  /-- stop records written since provisioning (R549) -/
  stops    : Nat
  /-- the next slot for a stop record -/
  stopSlot : Nat
  /-- a stop record is newer than the last CLEAR_STOP -/
  newStop  : Bool
  /-- the PHC at step 1 of R548 -/
  failAt   : PtpTime
  /-- the root PLL is on its way to a new PRIMARY (R554) -/
  pllMove  : Bool
  /-- the steward core is halted through the TAP (R593) -/
  stwHalt  : Bool
  /-- Delay_Req frames that wait for the MAC, with their domain (R485, R492) -/
  frames   : List (Bytes × Nat)
  deriving DecidableEq, Repr

/-- After power-up the release sequence of the POR is to run (R564). -/
def Sys.zero : Sys :=
  { asserted := 0, booting := true, por := true, fail := none, hot := 0, fallow := none, wake := 0, slept := 0, mbx := [],
    load := none, stops := 0, stopSlot := 0, newStop := false, failAt := ⟨0, 0, 0⟩, pllMove := false, stwHalt := false, frames := [] }

/-! ## Security -/

/-- What a half holds in OTP (R562, R581, R582, R588, R589). -/
structure Otp where
  /-- option set copies A and B, 128 bytes each once programmed -/
  optA   : Bytes
  optB   : Bytes
  lcs    : Nat
  /-- owner records programmed, in slot order -/
  owners : List Bytes
  /-- the current owner slot, if one is not revoked -/
  owner  : Option Nat
  /-- public identity key, once generated -/
  key    : Option Bytes
  /-- SHA-384 of the certificate chain, and the chain's length -/
  chain  : Option (Bytes × Nat)
  deriving DecidableEq, Repr

/-- A BLANK half. -/
def Otp.zero : Otp := { optA := [], optB := [], lcs := 0, owners := [], owner := none, key := none, chain := none }

/-- The SEC block (R577 to R601). Slots and their counts are in `regs`. -/
structure Sec where
  otp   : Otp
  /-- the live nonce (R590) -/
  nonce : Option Bytes
  /-- the firmware slot chosen at boot, its SVN -/
  fwSvn : Nat
  fwVer : Nat
  /-- TAMPER has been asserted since the last reset of reach Half: the measurement slots stay at zero (R580) -/
  tampered : Bool
  /-- committed option set -/
  opt   : Bytes
  /-- tenths of a nanosecond of the second of a lockout wait that runs (R595) -/
  waitT : Nat
  deriving DecidableEq, Repr

/-- The SEC block of a BLANK half after reset. -/
def Sec.zero : Sec :=
  { otp := Otp.zero, nonce := none, fwSvn := 0, fwVer := 0, tampered := false, opt := [], waitT := 0 }

/-! ## What leaves the module -/

/-- Something the half sends to the outside. -/
inductive Output where
  /-- an MSI-X message of the half's endpoint (R478) -/
  | msix (vec : BitVec 8) (addr : BitVec 64) (data : Word)
  /-- a posted write to host memory -/
  | hostWrite (addr : BitVec 64) (data : Bytes)
  /-- a block on the lanes of a Tilmoyr bundle (R142): the header of its slices, and in their order the lane of each and its 70
  payload bits, scrambled -/
  | block (b : BitVec 4) (hdr : BitVec 2) (slices : List (BitVec 3 × BitVec 70))
  /-- the MEM interrupt, which no register routes to a vector (R246, R249) -/
  | memIrq
  /-- the answer to an access: STATUS of R519 (0 OK, 1 UR, 2 CA, 3 DATA_ERR) and the bytes read -/
  | answer (m : Master) (status : BitVec 2) (data : Bytes)
  /-- the completion of a configuration read (R473) -/
  | config (data : Word)
  /-- the completion of a host request (R475) -/
  | completion (status : BitVec 2) (data : Bytes)
  /-- a word on the trace port (R537) -/
  | traceWord (w : Word)
  /-- a frame on the management Ethernet port, without FCS (R483) -/
  | frame (data : Bytes)
  /-- an answer of the DOE mailbox's SPDM responder (R583) -/
  | spdm (data : Bytes)
  /-- what the TAP shifts out (R593) -/
  | tdo (data : Bytes)
  /-- a word's time on the transmitter of a lane (R462, R467) -/
  | lane (l : BitVec 6) (what : LaneTx)
  /-- DB_CODE returned at the fabric's queue port (R415) -/
  | dbCode (q : BitVec 6) (code : BitVec 4)
  deriving DecidableEq, Repr

/-! ## The half, the module, the state -/

/-- One emulation die with its memories (R1, R11). -/
structure Half where
  self   : HalfId
  /-- registers that do not hold their reset value, by offset from the control base -/
  regs   : SMap Word
  /-- the HI words latched by reads of LO, by the offset of HI -/
  latch  : SMap Word
  mem    : List Host.Cell
  ar     : Array
  bundle : SMap Bundle
  run    : Run
  seq    : Seq
  /-- the lead half's sequencer as copied at the last boundary (R194) -/
  seqCopy : Seq
  pci    : Pci
  mt     : MemTest
  txe    : Txe
  eng    : Engines
  asr    : Asr
  ptm    : Ptm
  fab    : Fab
  pins   : Pins
  trc    : Trc
  sys    : Sys
  sec    : Sec
  /-- control cycles since reset (R200) -/
  ctl    : Nat
  /-- everything the half has sent out, newest first -/
  out    : List Output
  /-- how many free values have been taken -/
  free   : Nat
  deriving DecidableEq, Repr

/-- The module: two halves and the commands that wait, first in first out. -/
structure State where
  h0      : Half
  h1      : Half
  pending : List Instr
  deriving DecidableEq, Repr

/-- Why a command could end the machine. None does: every command of the table has a next state. -/
inductive Fault where
  /-- Raised by nothing: R26 to R30 let no block stop. Safe. -/
  | halted
  deriving DecidableEq, Repr

/-- Why a command is refused. -/
inductive Refusal where
  /-- Raised by the arm of a command that has no meaning yet. Safe: nothing follows from it. -/
  | notModelled (mnemonic : String)
  deriving DecidableEq, Repr

/-- The state of the array after reset: nothing listed. -/
def Array.zero : Array :=
  { infl := [], dst := [], brin := [], bridge := [], sent := [], din := [], dout := [], rdata := [], bankQ := [], bankRet := [], hbmRd := [],
    hbmWr := [], lin := [], linBad := [], trig := [], asrt := [],
    bpFault := false, xchFault := false, pendBp := [], pendSw := [], ecc := [], unsrvd := [], chHit := [], chHot := [], chLast := [] }

/-- Run control after reset: UNLOADED (R186), half 0 the lead half (R35). -/
def Run.zero (h : HalfId) : Run :=
  { state := .unloaded, mode := .joined, loaded := none, prev := none, lead := h == .h0, hfault := false, throttled := false, thrReq := none,
    cyc := 0#64, vt := 0#64, startVt := 0#64, steps := 0, lsc := 0#48, oneLsc := false, req := none, cond := none, holdCyc := none,
    holdVt := none, stall := none, rest := [], decided := none, decAt := 0, idle := none, pend := [], ext := [], edges := none,
    linkStart := none, linkWait := none, linked := false, linkSend := none, linkCfg := 0#32, linkEnd := false,
    aborted := none, linkHalt := false, assured := false }

/-- The sequencer after reset. -/
def Seq.zero : Seq := { w := [], pc := 0#14, exec := .halted, wait := .none, progWords := 0 }

/-- A half after reset. -/
def Half.zero (h : HalfId) : Half :=
  { self := h, regs := [], latch := [], mem := [], ar := Array.zero, bundle := [], run := Run.zero h,
    seq := Seq.zero, seqCopy := Seq.zero, pci := Pci.zero, mt := MemTest.zero, txe := Txe.zero, eng := Engines.zero,
    asr := Asr.zero, ptm := Ptm.zero, fab := Fab.zero, pins := Pins.zero, trc := Trc.zero,
    sys := Sys.zero, sec := Sec.zero, ctl := 0, out := [], free := 0 }

/-- The module right after power-on reset. -/
def State.reset : State := { h0 := Half.zero .h0, h1 := Half.zero .h1, pending := [] }

end Sys2Proof.Machine
end

