-- ==== Sys2Proof/Machine/Ops.lean ====
section
/-!
DEFINITION. Machine/Ops.lean: the named operations over halves, registers and memory that every meaning is built
from.
-/

namespace Sys2Proof.Machine

/-! ## Halves -/

/-- The other half of the module. -/
def otherHalf : HalfId → HalfId
  | .h0 => .h1
  | .h1 => .h0

/-- A half's number. -/
def halfNum : HalfId → Nat
  | .h0 => 0
  | .h1 => 1

/-- One half of the module. -/
def State.half (s : State) : HalfId → Half
  | .h0 => s.h0
  | .h1 => s.h1

/-- The module with one half replaced. -/
def State.setHalf (s : State) (h : HalfId) (x : Half) : State :=
  match h with
  | .h0 => { s with h0 := x }
  | .h1 => { s with h1 := x }

/-- Change one half. -/
def State.upd (s : State) (h : HalfId) (f : Half → Half) : State := s.setHalf h (f (s.half h))

/-- Change both halves alike. -/
def State.both (s : State) (f : Half → Half) : State := { s with h0 := f s.h0, h1 := f s.h1 }

/-- Apply a change when a condition holds. -/
def Half.when (x : Half) (b : Bool) (f : Half → Half) : Half := if b then f x else x

/-- Send something out. -/
def Half.emit (x : Half) (o : Output) : Half := { x with out := o :: x.out }

/-! ## Fields of words -/

/-- The field of `n` bits at bit `lo`. -/
def fld (w : Word) (lo n : Nat) : Nat := natField w.toNat lo n

/-- One bit of a word. -/
def wbit (w : Word) (i : Nat) : Bool := w.getLsbD i

/-- A mask of `n` ones at bit `lo`. -/
def mask (lo n : Nat) : Word := BitVec.ofNat 32 ((2 ^ n - 1) * 2 ^ lo)

/-- The word with the field of `n` bits at bit `lo` set to `v`. -/
def setFld (w : Word) (lo n v : Nat) : Word :=
  (w &&& ~~~(mask lo n)) ||| BitVec.ofNat 32 (v % 2 ^ n * 2 ^ lo)

/-- A saturating count of `n` bits. -/
def satAdd (n a b : Nat) : Nat := min (a + b) (2 ^ n - 1)

/-! ## Registers (R15 to R18) -/

/-- What a register holds. -/
def Half.reg (x : Half) (off : Nat) : Word := sget x.regs off (regReset off)

/-- Make a register hold a value. -/
def Half.setReg (x : Half) (off : Nat) (v : Word) : Half := { x with regs := sput x.regs off (regReset off) v }

/-- A field of a register. -/
def Half.rfld (x : Half) (off lo n : Nat) : Nat := fld (x.reg off) lo n

/-- A bit of a register. -/
def Half.rbit (x : Half) (off i : Nat) : Bool := wbit (x.reg off) i

/-- Set a field of a register. -/
def Half.setRFld (x : Half) (off lo n v : Nat) : Half := x.setReg off (setFld (x.reg off) lo n v)

/-- Set or clear one bit of a register. -/
def Half.setRBit (x : Half) (off i : Nat) (b : Bool) : Half := x.setRFld off i 1 (bitNat b)

/-- Count in a saturating field of a register. -/
def Half.countFld (x : Half) (off lo n k : Nat) : Half := x.setRFld off lo n (satAdd n (x.rfld off lo n) k)

/-- A 64-bit value held in a LO/HI pair. -/
def Half.reg64 (x : Half) (lo hi : Nat) : Nat := (x.reg lo).toNat + (x.reg hi).toNat * 2 ^ 32

/-- Set a LO/HI pair. -/
def Half.setReg64 (x : Half) (lo hi : Nat) (v : Nat) : Half :=
  (x.setReg lo (BitVec.ofNat 32 v)).setReg hi (BitVec.ofNat 32 (v / 2 ^ 32))

/-- What software's write of `v` leaves in a register whose present value is `old` (R17); `locked` is the block's
LOCK bit. Bits that are read-only, reserved or write-only keep their value. -/
def regWritten (d : RegDesc) (locked : Bool) (old v : Word) : Word :=
  let rw := BitVec.ofNat 32 (if locked then d.rw else d.rw ||| d.rwl)
  let w1c := BitVec.ofNat 32 d.w1c
  let w1s := BitVec.ofNat 32 d.w1s
  (((old &&& ~~~rw) ||| (v &&& rw)) &&& ~~~(v &&& w1c)) ||| (v &&& w1s)

/-- Count in a saturating 64-bit LO/HI pair. -/
def Half.count64 (x : Half) (lo hi n : Nat) : Half := x.setReg64 lo hi (satAdd 64 (x.reg64 lo hi) n)

/-! ## Which halves work together (R5, R375) -/

/-- Half `h` is marked retired in `ASR_STATUS` (R375). -/
def Half.sawRetired (x : Half) (h : HalfId) : Bool := x.rbit Reg.asrStatus (18 + halfNum h)

/-- A half has been retired (R368, R375). -/
def State.anyRetired (s : State) : Bool :=
  s.h0.sawRetired .h0 || s.h0.sawRetired .h1 || s.h1.sawRetired .h0 || s.h1.sawRetired .h1

/-- The mode of the loaded image, which its next run takes; with none loaded that of the last run (R5, R187). -/
def Half.imgMode (x : Half) : Mode := x.run.loaded.getD x.run.mode

/-! ## Memory (R42) -/

/-- What an unlisted byte reads as (log entry 2). -/
def emptyByte : Byte := 0#8

/-- The canonical form of a memory: addresses strictly rising, no entry equal to an unlisted byte. -/
def Memory.wf (m : List Host.Cell) : Bool := sortedFrom 0 m && m.all (fun c => c.2 != emptyByte)

/-- Read a byte. -/
def rdByte (m : List Host.Cell) (a : Nat) : Byte := sget m a emptyByte

/-- Write a byte. -/
def wrByte (m : List Host.Cell) (a : Nat) (v : Byte) : List Host.Cell := sput m a emptyByte v

/-- Read `n` bytes from `a` up. -/
def rdBytes (m : List Host.Cell) (a : Nat) : Nat → Bytes
  | 0 => []
  | n + 1 => rdByte m a :: rdBytes m (a + 1) n

/-- Write bytes from `a` up. -/
def wrBytes (m : List Host.Cell) (a : Nat) : Bytes → List Host.Cell
  | [] => m
  | b :: bs => wrBytes (wrByte m a b) (a + 1) bs

/-- A little-endian number from bytes. -/
def leNat : Bytes → Nat
  | [] => 0
  | b :: bs => b.toNat + 256 * leNat bs

/-- The `n` little-endian bytes of a number. -/
def leBytes : Nat → Nat → Bytes
  | 0, _ => []
  | n + 1, v => BitVec.ofNat 8 v :: leBytes n (v / 256)

/-- `n` bytes of zero. -/
def zeros (n : Nat) : Bytes := List.replicate n 0#8

/-- Read a little-endian number of `n` bytes. -/
def Half.rdMem (x : Half) (a n : Nat) : Nat := leNat (rdBytes x.mem a n)

/-- Set the written flags of the granules that `n` bytes from `a` up reach (R248), for banks and scratchpads. -/
def Half.touch (x : Half) (a n : Nat) : Half :=
  if 0x88000000 ≤ a ∧ a < 0x8C800000 ∧ 0 < n then
    let g0 := (a - 0x88000000) / 4096
    let g1 := (a + n - 1 - 0x88000000) / 4096
    { x with mt := { x.mt with
      wrote := (List.range (g1 - g0 + 1)).foldl (fun m i => sput m (g0 + i) false true) x.mt.wrote } }
  else x

/-- Write a byte string. -/
def Half.wrMemBytes (x : Half) (a : Nat) (bs : Bytes) : Half :=
  let y := { x with mem := wrBytes x.mem a bs }
  y.touch a bs.length

/-- Write a little-endian number of `n` bytes. -/
def Half.wrMem (x : Half) (a n v : Nat) : Half := x.wrMemBytes a (leBytes n v)

/-- Forget every byte for which `p` holds, so that it reads as an unlisted byte. -/
def Half.clearMem (x : Half) (p : Nat → Bool) : Half := { x with mem := keepKeys (fun a => !p a) x.mem }

/-! ## Places in memory -/

/-- The word of BP `g` at position `s` (R42). -/
def bpWordAddr (g s : Nat) : Nat := g * 0x8000 + s * 8
/-- The byte of copy 0 that holds slot `s` of BP `g` (R42). -/
def slotAddr (g s : Nat) : Nat := 0x80000000 + g * 0x800 + s / 8
/-- The user bank of a tile. -/
def bankAddr (t : Nat) : Nat := 0x88000000 + t * 0x100000
/-- Scratchpad `k`. -/
def spAddr (k : Nat) : Nat := 0x8C000000 + k * 0x100000
/-- Palette entry `e` of cluster `c` of tile `t`. -/
def palAddr (t c e : Nat) : Nat := 0x8E000000 + (t * 16 + c) * 0x200 + e * 2
/-- The attribute store of a tile, at addresses of the model's own beyond the 40-bit map: the window of R42 shows
four tiles of it at a time (log entry 3). -/
def attrBase (t : Nat) : Nat := 0x10000000000 + t * 0x200000
/-- The switch store of a tile, at addresses of the model's own: the window of R42 shows eight tiles of it. -/
def swBase (t : Nat) : Nat := 0x10100000000 + t * 0x200000
/-- Move `m` of the switch instruction of tile `t` at position `p`. -/
def moveAddr (t p m : Nat) : Nat := swBase t + p * 0x200 + 3 * m
/-- The first byte of HBM. -/
def hbmBase : Nat := 0x1000000000

/-- The value of a slot (copy 0; the copies agree, R70). -/
def Half.slot (x : Half) (g s : Nat) : Bool := (rdByte x.mem (slotAddr g s)).getLsbD (s % 8)

/-- A byte with one bit set or cleared. -/
def setBit (b : Byte) (i : Nat) (v : Bool) : Byte :=
  if v then b ||| BitVec.ofNat 8 (2 ^ i) else b &&& ~~~(BitVec.ofNat 8 (2 ^ i))

/-- Write a slot, all four copies. -/
def Half.setSlot (x : Half) (g s : Nat) (v : Bool) : Half :=
  { x with mem := wrByte x.mem (slotAddr g s) (setBit (rdByte x.mem (slotAddr g s)) (s % 8) v) }

/-- The 4-bit attribute of slot `s` of BP `g` (R42, R75). -/
def Half.attr (x : Half) (g s : Nat) : Nat :=
  (rdByte x.mem (attrBase (g / 1024) + g % 1024 * 0x800 + s / 2)).toNat / (if s % 2 = 0 then 1 else 16) % 16

/-! ## Check bits -/

/-- What the check bits of the word at `a` show: none when they are good. -/
def Half.eccAt (x : Half) (a : Nat) : Option Bool := sget x.ar.ecc a none

/-- The words of 64 bits that `n` bytes from `a` up reach. -/
def wordsOf (a n : Nat) : List Nat :=
  if n = 0 then [] else (List.range ((a + n - 1) / 8 - a / 8 + 1)).map (fun i => (a / 8 + i) * 8)

/-- A write's own words become good: it gives them new check bits. -/
def Half.eccClear (x : Half) (a n : Nat) : Half :=
  { x with ar := { x.ar with ecc := (wordsOf a n).foldl (fun m w => sput m w none none) x.ar.ecc } }

/-! ## Faults and replay -/

/-- A half fault has arisen (R238, R249, R604). -/
def Half.halfFault (x : Half) : Half := { x with run := { x.run with hfault := true } }

/-- A fault that assured operation recovers in place (R360); without it the run goes on. -/
def Half.recoverable (x : Half) : Half := if x.asr.active then x.halfFault else x

/-- The present cycle is a replayed one (R361). -/
def Half.replaying (x : Half) : Bool :=
  match x.asr.replay with
  | some e => decide (x.run.cyc ≤ e)
  | none => false

/-! ## Errors of accesses (R475, R519) -/

/-- A write completes with an error: `st` is its STATUS, 1 UR or 2 CA. A posted write of the host is logged in AER. -/
def Half.writeErr (x : Half) (m : Master) (st : BitVec 2) : Half :=
  if m = .host then
    if st = 1#2 then { x with pci := { x.pci with aerUr := true } } else { x with pci := { x.pci with aerCa := true } }
  else x.emit (.answer m st [])

/-- A read is answered to its master: STATUS 0 OK, 1 UR, 2 CA, 3 DATA_ERR (R475, R519). -/
def Half.readAns (x : Half) (m : Master) (st : BitVec 2) (data : Bytes) : Half :=
  x.emit (if m = .host then .completion st data else .answer m st data)

/-- Whether the block turns a master's register accesses away: the fabric reaches no register (R404); the endpoint
passes no request while HOST_EN is 0 (R476) or in fallow (R556). -/
def Half.masterErr (x : Half) (m : Master) : Option (BitVec 2) :=
  match m with
  | .afb => some 1#2
  | .host => if x.rbit Reg.pciCtrl 0 then (if x.sys.fallow.isSome then some 2#2 else none) else some 1#2
  | _ => none

/-- A master's register write: its effect, unless the master is turned away. -/
def State.byMaster (s : State) (h : HalfId) (m : Master) (f : State → State) : State :=
  match (s.half h).masterErr m with
  | some st => s.upd h (fun x => x.writeErr m st)
  | none => f s

/-- A master's register read: its effect, unless the master is turned away. -/
def State.readBy (s : State) (h : HalfId) (m : Master) (f : Half → Half) : State :=
  match (s.half h).masterErr m with
  | some st => s.upd h (fun x => x.readAns m st [])
  | none => s.upd h f

/-! ## Free values -/

/-- Take a value the specification leaves open. -/
def Half.fresh (x : Half) (w : Nat) : BitVec w × Half :=
  (Config.freeValue w (halfNum x.self) x.free, { x with free := x.free + 1 })

end Sys2Proof.Machine
end

