-- ==== Sys2Proof/Machine/Access.lean ====
section
/-!
DEFINITION. Machine/Access.lean: accesses of the masters to the stores and memories of a half: the address map (R42 to R47),
what an access may do (R49 to R51, R230 to R236, R322, R329), error correction (R238 to R240), the packets of an access
(R516), and the reads and writes that the blocks of a half make themselves.
-/

namespace Sys2Proof.Machine

/-- A run is in progress in the half (R186): RUNNING, HELD or RECOVERING. -/
def Half.inRun (x : Half) : Bool := x.run.state == .running || x.run.state == .held || x.run.state == .recovering

/-- Is logical BP `g` unserved (R83, R90)? -/
def Half.unserved (x : Half) (g : Nat) : Bool :=
  if g % 64 < 32 then x.rbit (Reg.bpaUnservedLo (g / 1024) (g / 64 % 16)) (g % 32)
  else x.rbit (Reg.bpaUnservedHi (g / 1024) (g / 64 % 16)) (g % 32)

/-- TARGET of a port: 0 OFF, 1 OWN_BANK, 2 REMOTE_BANK, 3 HBM (R217). -/
def Half.portTarget (x : Half) (tile p : Nat) : Nat := x.rfld (Reg.tilMportCfg tile p) 0 2

/-- Word width of a port in bytes (R217). -/
def Half.portBytes (x : Half) (tile p : Nat) : Nat := 2 ^ x.rfld (Reg.tilMportCfg tile p) 2 2

/-- The tile whose bank a port reaches. -/
def Half.portTile (x : Half) (tile p : Nat) : Nat :=
  if x.portTarget tile p = 2 then x.rfld (Reg.tilMportCfg tile p) 18 6 else tile

/-- Trigger engine `e`. -/
def Half.trg (x : Half) (e : Nat) : TrgEng := sget x.eng.trg e TrgEng.zero
/-- Capture engine `c`. -/
def Half.cap (x : Half) (c : Nat) : CapEng := sget x.eng.cap c CapEng.zero
/-- Playback engine `p`. -/
def Half.ply (x : Half) (p : Nat) : PlyEng := sget x.eng.ply p PlyEng.zero
/-- Replace a trigger engine. -/
def Half.setTrg (x : Half) (e : Nat) (v : TrgEng) : Half := { x with eng := { x.eng with trg := sput x.eng.trg e TrgEng.zero v } }
/-- Replace a capture engine. -/
def Half.setCap (x : Half) (c : Nat) (v : CapEng) : Half := { x with eng := { x.eng with cap := sput x.eng.cap c CapEng.zero v } }
/-- Replace a playback engine. -/
def Half.setPly (x : Half) (p : Nat) (v : PlyEng) : Half := { x with eng := { x.eng with ply := sput x.eng.ply p PlyEng.zero v } }

/-- An armed engine. -/
def EngState.armed (s : EngState) : Bool := s == .pending || s == .active || s == .triggered

/-- 24 GiB, one stack; 48 GiB, the HBM of a half. -/
def stackBytes : Nat := 0x600000000

/-- The HBM byte offsets that a region occupies, as half-open ranges (R307). -/
def regionRanges (base size : Nat) (stripe : Bool) : List (Nat × Nat) :=
  if size = 0 then [] else
    if stripe then [(base, base + size / 2), (stackBytes + base, stackBytes + base + size / 2)] else [(base, base + size)]

/-- Two ranges meet. -/
def rangesMeet (a b : Nat × Nat) : Bool := decide (a.1 < b.2) && decide (b.1 < a.2)

/-- The HBM ranges of the memory ports of the half (R219, R230). -/
def Half.portRanges (x : Half) : List (Nat × Nat) :=
  (List.range 256).filterMap (fun i =>
    if x.portTarget (i / 4) (i % 4) = 3 then
      let b := x.rfld (Reg.tilMportBase (i / 4) (i % 4)) 0 16 * 2 ^ 20
      some (b, b + 2 ^ x.rfld (Reg.tilMportCfg (i / 4) (i % 4)) 13 5 * x.portBytes (i / 4) (i % 4))
    else none)

/-- The ASR area while EN is 1 (R340, R376). -/
def Half.asrRanges (x : Half) : List (Nat × Nat) :=
  if x.rbit Reg.asrCtrl 0 then
    let b := x.rfld Reg.asrAreaBase 0 16 * 2 ^ 20
    [(b, b + x.rfld Reg.asrAreaSize 0 16 * 2 ^ 20)]
  else []

/-- The ranges of a capture: its region and its HBM spill. -/
def CapDesc.ranges (d : CapDesc) : List (Nat × Nat) :=
  regionRanges d.regBase d.regSize (natBit d.flags 1) ++
    (if natField d.flags 2 2 = 1 then regionRanges d.spBase d.spSize (natBit d.flags 1) else [])

/-- The ranges of the armed capture engines but `c`. -/
def Half.capRanges (x : Half) (c : Nat) : List (Nat × Nat) :=
  ((List.range 4).filter (fun i => i != c && (x.cap i).st.armed)).flatMap (fun i =>
    match (x.cap i).desc with
    | some d => d.ranges
    | none => [])

/-- The pattern ranges of the armed playback engines but `p`. -/
def Half.plyRanges (x : Half) (p : Nat) : List (Nat × Nat) :=
  ((List.range 4).filter (fun i => i != p && (x.ply i).st.armed)).flatMap (fun i =>
    match (x.ply i).desc with
    | some d => [(d.base, d.base + d.size)]
    | none => [])

/-- Bytes that lie in SP7, or in the fabric's HBM window (R405, R415). -/
def Half.fabReach (x : Half) (a n : Nat) : Bool :=
  let w := hbmBase + x.rfld Reg.afbHbmBase 0 16 * 2 ^ 20
  (decide (spAddr 7 ≤ a) && decide (a + n ≤ spAddr 7 + 0x100000)) ||
  (decide (w ≤ a) && decide (a + n ≤ w + x.rfld Reg.afbHbmSize 0 16 * 2 ^ 20) && decide (a + n ≤ 0x1C00000000))

/-- The bank of tile `t` is named by a port of the half (R230). -/
def Half.bankOwned (x : Half) (t : Nat) : Bool :=
  (List.range 256).any (fun i => (x.portTarget (i / 4) (i % 4) == 1 || x.portTarget (i / 4) (i % 4) == 2) &&
    x.portTile (i / 4) (i % 4) == t)

/-- An HBM address in the region of an HBM port of the half (R219, R230). -/
def Half.hbmOwned (x : Half) (a : Nat) : Bool :=
  (List.range 256).any (fun i =>
    let base := hbmBase + x.rfld (Reg.tilMportBase (i / 4) (i % 4)) 0 16 * 2 ^ 20
    x.portTarget (i / 4) (i % 4) == 3 && decide (base ≤ a) &&
      decide (a < base + 2 ^ x.rfld (Reg.tilMportCfg (i / 4) (i % 4)) 13 5 * x.portBytes (i / 4) (i % 4)))

/-- A march test is in progress. -/
def Half.marchBusy (x : Half) : Bool := x.rbit Reg.memMarchStatus 0

/-! ## The address map (R42 to R46) -/

/-- The ranges of R42. -/
inductive Region where
  | instr | slots | bank | sp | setA | clrA | pal | attr | sw | ctl | hbm
  deriving DecidableEq, Repr

/-- Each range with its first byte and the byte after its last. -/
def regionMap : List (Nat × Nat × Region) :=
  [(0, 0x80000000, .instr), (0x80000000, 0x88000000, .slots), (0x88000000, 0x8C000000, .bank),
   (0x8C000000, 0x8C800000, .sp), (0x8C800000, 0x8D000000, .setA), (0x8D000000, 0x8D800000, .clrA),
   (0x8E000000, 0x8E080000, .pal), (0x8E800000, 0x8F000000, .attr), (0x8F000000, 0x90000000, .sw),
   (0x90000000, 0x91600000, .ctl), (0x92000000, 0x96000000, .ctl), (0x1000000000, 0x1600000000, .hbm),
   (0x1600000000, 0x1C00000000, .hbm)]

/-- The range that holds `n` bytes from `a` up; an access that leaves it is an unsupported request (R44, R475). -/
def regionOf (a n : Nat) : Option Region :=
  (regionMap.find? (fun r => decide (r.1 ≤ a) && decide (a + n ≤ r.2.1))).map (fun r => r.2.2)

/-- The window-select register of a master (R45). -/
def winsel (m : Master) : Option Nat :=
  match m with
  | .host => some 0
  | .seq => some 1
  | .stw => some 2
  | .txe => some 3
  | .afb => some 4
  | _ => none

/-- An access resolved: the range it acts on, its place in the model's memory, and the alias operation. -/
structure Place where
  region : Region
  addr   : Nat
  /-- an alias access: it sets (`true`) or clears bits -/
  alias_ : Option Bool
  deriving DecidableEq, Repr

/-- Where a master's access of `n` bytes at `a` goes (R42 to R46, R404, R405); none is an unsupported request. -/
def Half.placeOf (x : Half) (m : Master) (a n : Nat) : Option Place :=
  match regionOf a n with
  | none => none
  | some r =>
    let w := winsel m
    let sel (lo k : Nat) : Nat := x.rfld (Reg.memWinsel (w.getD 0)) lo k
    let reach := m != .afb || r == .hbm || r == .setA || r == .clrA || (r == .sp && a / 0x100000 == 0x8C7)
    if !reach || n == 0 then none
    else match r with
    | .setA | .clrA =>
      let o := a % 0x800000
      if w.isNone || !((n == 4 || n == 8) && a % n == 0) then none
      else if sel 7 4 < 8 then some ⟨.bank, 0x88000000 + sel 7 4 * 0x800000 + o, some (r == .setA)⟩
      else if sel 7 4 = 8 then some ⟨.sp, spAddr 0 + o, some (r == .setA)⟩
      else none
    | .attr => if w.isNone then none else some ⟨r, attrBase (4 * sel 3 4) + (a - 0x8E800000), none⟩
    | .sw => if w.isNone then none else some ⟨r, swBase (8 * sel 0 3) + (a - 0x8F000000), none⟩
    | .hbm => if x.rbit Reg.stwBoot (if a < 0x1600000000 then 26 else 27) then none else some ⟨r, a, none⟩
    | _ => some ⟨r, a, none⟩

/-! ## What an access may do (R49 to R51, R230 to R236, R242, R322, R329, R360) -/

/-- The access has a form its range serves (R15, R234, R475): registers one aligned word; scratchpads 4 aligned bytes, or
8 to 64 in one block of 64. A request of the host is split into naturally aligned pieces, each of 4 bytes or more where
it is made of whole words. -/
def formOk (m : Master) (p : Place) (n : Nat) : Bool :=
  match p.region, p.alias_ with
  | .ctl, _ => n == 4 && p.addr % 4 == 0 && (regAt (p.addr - 0x90000000)).isSome
  | .sp, none =>
    (n == 4 && p.addr % 4 == 0) ||
    (if m = .host then n % 4 == 0 && p.addr % 4 == 0
     else n % 8 == 0 && p.addr % 8 == 0 && decide (p.addr % 64 + n ≤ 64))
  | _, _ => true

/-- The tiles whose banks `n` bytes at `a` reach. -/
def banksOf (a n : Nat) : List Nat :=
  (List.range ((a + n - 1) / 0x100000 - a / 0x100000 + 1)).map (fun i => (a - 0x88000000) / 0x100000 + i)

/-- `n` bytes at `a` of HBM meet one of the ranges, which are byte offsets in HBM. -/
def hbmMeets (a n : Nat) (rs : List (Nat × Nat)) : Bool := rs.any (fun r => rangesMeet (a - hbmBase, a - hbmBase + n) r)

/-- The master owns scratchpad `k` (R233). -/
def spOwner (k : Nat) (m : Master) : Bool :=
  match k with
  | 0 => m == .seq
  | 1 => m == .txe
  | 2 => m == .engines || m == .canvas
  | 3 => m == .trace
  | 4 => m == .asr
  | 5 => m == .stw
  | 6 => m == .host || m == .eth
  | _ => m == .afb

/-- The master may write scratchpad `k` (R233, R234). -/
def Half.spWrites (x : Half) (k : Nat) (m : Master) : Bool :=
  spOwner k m || (m == .host && x.rbit Reg.memSpAcl k) || (m == .stw && x.rbit Reg.memSpAcl (16 + k))

/-- Masters whose writes of design state assured operation stops (R51, R405): by the last sentence of R51 all but its own
restores (log entry 92). -/
def writesDesign (m : Master) : Bool := m != .asr

/-- The design's memories serve no master but the ports (R50, R189, R230): a run is in progress and not held at a stall point,
as it is in HELD and, before its replay, in RECOVERING (R360). -/
def Half.runExcludes (x : Half) : Bool :=
  x.inRun && x.run.state != .held && !(x.run.state == .recovering && x.asr.replay.isNone)

/-- Refused by policy: the access completes with an error and has no effect. -/
def Half.policyErr (x : Half) (m : Master) (p : Place) (n : Nat) (write : Bool) : Bool :=
  let marching := x.marchBusy && (m == .host || m == .stw)
  let rewriting := m == .stw && x.run.state == .recovering && x.asr.rewrite
  let sealed := write && x.asr.active && writesDesign m
  match p.region with
  | .instr | .pal | .attr | .sw => (write && x.inRun && !rewriting) || marching
  | .slots => x.runExcludes || sealed || marching
  | .bank => sealed || (x.runExcludes && (banksOf p.addr n).any (fun t => x.bankOwned t))
  | .sp =>
    let ks := (List.range ((p.addr + n - 1) / 0x100000 - p.addr / 0x100000 + 1)).map (fun i => p.addr / 0x100000 - 0x8C0 + i)
    ks.any (fun k => if write then !x.spWrites k m else k == 5 && m != .stw)
  | .hbm =>
    let owned := hbmMeets p.addr n x.portRanges
    (sealed && owned) || (x.runExcludes && owned) ||
    (write && x.asr.active && hbmMeets p.addr n [(x.asr.image.1, x.asr.image.1 + x.asr.image.2)]) ||
    (write && m != .engines && m != .canvas && hbmMeets p.addr n (x.capRanges 4 ++ x.plyRanges 4)) ||
    (m == .afb && !x.fabReach p.addr n)
  | _ => false

/-- Where an access of a form that its range serves goes; none is an unsupported request. -/
def Half.permit (x : Half) (m : Master) (a n : Nat) : Option Place :=
  (x.placeOf m a n).filter (fun p => formOk m p n)

/-! ## Error correction (R238 to R240) -/

/-- SOURCE of `MEM_ERR_STATUS` for an address: 1 bank, 2 scratchpad, 3 and 4 the HBM stacks. -/
def memSource (a : Nat) : Nat :=
  if a < 0x8C000000 then 1 else if a < 0x8C800000 then 2 else if a < 0x1600000000 then 3 else 4

/-- The first uncorrectable error is recorded (R238, R240). -/
def Half.memUncorr (x : Half) (a : Nat) : Half :=
  if x.rbit Reg.memErrStatus 0 then x
  else ((x.setRBit Reg.memErrStatus 0 true).setRFld Reg.memErrStatus 4 4 (memSource a)).setReg64
    Reg.memErrAddrLo Reg.memErrAddrHi a

/-- A corrected error is counted and its word is written back (R238 to R240). -/
def Half.memCorr (x : Half) (a : Nat) : Half :=
  let y := { x with ar := { x.ar with ecc := sput x.ar.ecc a none none } }
  match memSource a with
  | 1 => (y.setRBit Reg.memErrStatus 1 true).countFld Reg.memEccCount 0 16 1
  | 2 => (y.setRBit Reg.memErrStatus 1 true).countFld Reg.memEccCount 16 16 1
  | k => y.countFld (Reg.hbcEccCount (k - 3)) 0 16 1

/-- Does a read of `n` bytes at `a` meet an uncorrectable word? -/
def Half.memBad (x : Half) (a n : Nat) : Bool := (wordsOf a n).any (fun w => x.eccAt w == some true)

/-- The words of `n` bytes at `a` that a write of them only merges into. -/
def mergedWords (a n : Nat) : List Nat := (wordsOf a n).filter (fun w => !(decide (a ≤ w) && decide (w + 8 ≤ a + n)))

/-- Correct every single-bit error among words that are read. -/
def Half.correctWords (x : Half) (ws : List Nat) : Half :=
  ws.foldl (fun y w => if y.eccAt w == some false then y.memCorr w else y) x

/-- Correct every single-bit error among the words of `n` bytes at `a`. -/
def Half.correct (x : Half) (a n : Nat) : Half := x.correctWords (wordsOf a n)

/-! ## Words of the stores and memories -/

/-- Bytes that read 0 and ignore writes: those of an unserved BP (R83) and the gap of a switch entry (R42). -/
def Half.hole (x : Half) (r : Region) (a : Nat) : Bool :=
  match r with
  | .instr => x.unserved (a / 0x8000)
  | .slots => x.unserved ((a - 0x80000000) / 0x800)
  | .sw => decide (0x180 ≤ (a - swBase 0) % 0x200)
  | _ => false

/-- A byte of a BP-array store as its window shows it; bytes 0x200 to 0x7FF of a slot block show the read copies (R70). -/
def Half.storeByte (x : Half) (r : Region) (a : Nat) : Byte :=
  if x.hole r a then 0#8
  else if r = .slots then rdByte x.mem (a / 0x800 * 0x800 + a % 0x200)
  else rdByte x.mem a

/-- Bytes of a store from `a` up. -/
def Half.storeBytes (x : Half) (r : Region) (a : Nat) : Nat → Bytes
  | 0 => []
  | n + 1 => x.storeByte r a :: x.storeBytes r (a + 1) n

/-- Write bytes of a store from `a` up; the views of the read copies ignore writes (R70), and so does bit 3 of each
attribute (R75). -/
def Half.storeWrite (x : Half) (r : Region) (a : Nat) : Bytes → Half
  | [] => x
  | b :: bs =>
    (if x.hole r a || (r == .slots && decide (0x200 ≤ a % 0x800)) then x
     else ({ x with mem := wrByte x.mem a (if r = .attr then b &&& 0x77#8 else b) } : Half)).storeWrite r (a + 1) bs

/-- Bytes that share check bits in a store: 8 of an instruction word, 3 of a move, 2 of a palette entry (R91, R117). -/
def eccWidth (r : Region) : Nat :=
  match r with
  | .sw => 3
  | .pal => 2
  | _ => 8

/-- The marked words of a store that `n` bytes at `a` meet. -/
def Half.storeMarks (x : Half) (r : Region) (a n : Nat) : List Nat :=
  (x.ar.ecc.filter (fun (e : Nat × Option Bool) => decide (e.1 < a + n) && decide (a < e.1 + eccWidth r))).map (fun e => e.1)

/-- Does an error of the access fall on the owner of SP0 to SP4 or SP7 while a run is in progress (R238)? -/
def Half.ownerErr (x : Half) (m : Master) (p : Place) : Bool :=
  let k := p.addr / 0x100000 - 0x8C0
  p.region == .sp && x.inRun && spOwner k m && k != 5 && k != 6

/-- A memory read meets words with an uncorrectable error (R238, R239): they read 0. -/
def Half.zeroed (x : Half) (a n : Nat) : Bytes :=
  (List.range n).map (fun i => if x.eccAt ((a + i) / 8 * 8) == some true then 0#8 else rdByte x.mem (a + i))

/-- The uncorrectable words of an access are recorded; for the owner of a scratchpad in a run they are a half fault. -/
def Half.badWords (x : Half) (m : Master) (p : Place) (ws : List Nat) : Half :=
  let y := (ws.filter (fun w => x.eccAt w == some true)).foldl Half.memUncorr x
  if x.ownerErr m p then y.halfFault else y

/-- Bytes of SP1 and SP2 in which the engines keep their tables and buffers (R279, R321, R328): the specification gives their
places, and not how they lie there. -/
def Half.engineSpace (x : Half) (a : Nat) : Bool :=
  (decide (spAddr 1 ≤ a) && decide (a < spAddr 2) && x.run.loaded.isSome) ||
  (List.range 4).any (fun i =>
    (let b := spAddr 2 + 0x40000 + i * 0x28000
     decide (b ≤ a) && decide (a < b + 0x28000) && (x.cap i).st != .idle) ||
    (let b := spAddr 2 + 0xE0000 + i * 0x8000
     decide (b ≤ a) && decide (a < b + 0x8000) && (x.ply i).st != .idle))

/-- A read that has been admitted: STATUS, the bytes, and the half after it. The bytes of a store word with an uncorrectable
error are not stated by the specification. -/
def Half.readAt (x : Half) (m : Master) (p : Place) (n : Nat) : BitVec 2 × Bytes × Half :=
  match p.region with
  | .bank | .sp | .hbm =>
    let y := x.correct p.addr n
    if y.memBad p.addr n then
      if y.ownerErr m p then (0#2, y.zeroed p.addr n, y.badWords m p (wordsOf p.addr n))
      else (3#2, zeros n, y.badWords m p (wordsOf p.addr n))
    else if p.region == .sp && y.engineSpace p.addr then
      let (v, z) := y.fresh (8 * n)
      (0#2, leBytes n v.toNat, z)
    else (0#2, rdBytes y.mem p.addr n, y)
  | r =>
    let open_ := (x.storeMarks r p.addr n).filter (fun w => x.eccAt w == some true && !x.hole r w)
    if open_.isEmpty then (0#2, x.storeBytes r p.addr n, x)
    else
      let (v, y) := x.fresh (8 * n)
      let bs := ((x.storeBytes r p.addr n).zip (leBytes n v.toNat)).zipIdx.map (fun b =>
        if open_.any (fun w => decide (w ≤ p.addr + b.2) && decide (p.addr + b.2 < w + eccWidth r)) then b.1.2 else b.1.1)
      (0#2, bs, y)

/-- A write of a bank, a scratchpad or HBM (R238): a word it covers in part is merged, and read for it; where that word is
uncorrectable, no write is made. -/
def Half.memWrite (x : Half) (m : Master) (p : Place) (merged : List Nat) (bs : Bytes) : BitVec 2 × Half :=
  let y := x.correctWords merged
  if merged.any (fun w => y.eccAt w == some true) then
    ((if y.ownerErr m p then 0#2 else 3#2), y.badWords m p merged)
  else (0#2, (y.eccClear p.addr bs.length).wrMemBytes p.addr bs)

/-- A word with bits set or cleared (R235). -/
def aliasByte (set : Bool) (w v : Byte) : Byte := if set then w ||| v else w &&& ~~~v

/-- A write that has been admitted: STATUS and the half after it. -/
def Half.writeAt (x : Half) (m : Master) (p : Place) (bs : Bytes) : BitVec 2 × Half :=
  let n := bs.length
  match p.region, p.alias_ with
  | .bank, some b | .sp, some b =>
    x.memWrite m p (wordsOf p.addr n) (List.zipWith (aliasByte b) (rdBytes x.mem p.addr n) bs)
  | .bank, none | .sp, none | .hbm, _ => x.memWrite m p (mergedWords p.addr n) bs
  | r, _ =>
    let y := (x.storeMarks r p.addr n).foldl (fun (y : Half) w =>
      if y.hole r w then y else { y with ar := { y.ar with ecc := sput y.ar.ecc w none none } }) x
    (0#2, y.storeWrite r p.addr bs)

/-! ## Packets of an access (R516, R523) -/

/-- The largest packet: up to a boundary of 256 bytes of HBM, of 64 bytes elsewhere. -/
def packetSpan (r : Region) : Nat := if r = .hbm then 256 else 64

/-- An access of `n` bytes at `a` as packets that cross no multiple of `span`: first byte and length. -/
def packetsOf (span a n : Nat) : List (Nat × Nat) :=
  if n = 0 then [] else
    (List.range ((a + n - 1) / span - a / span + 1)).map (fun i =>
      let lo := max a ((a / span + i) * span)
      (lo, min (a + n) ((a / span + i + 1) * span) - lo))

/-- The station that serves a device address (R515, R516): a tile's bank, a channel group of an HBM stack, the scratchpads; none
for an address that the torus does not carry, and for an alias window, whose segment is the master's own. -/
def stationOf (a : Nat) : Option Nat :=
  match regionOf a 1 with
  | some .bank => some ((a - 0x88000000) / 0x100000)
  | some .sp => some 0x50
  | some .hbm => some (0x40 + 8 * ((a - hbmBase) / stackBytes) + (a - hbmBase) % stackBytes / 256 % 8)
  | _ => none

/-- The status of an access whose packets end with these: that of the first in error. -/
def joinStatus (a b : BitVec 2) : BitVec 2 := if a = 0#2 then b else a

/-- Read the packets of an access, each judged and served alone: a packet in error returns zeros. -/
def Half.readPackets (x : Half) (m : Master) (p : Place) (n : Nat) : BitVec 2 × Bytes × Half :=
  (packetsOf (packetSpan p.region) p.addr n).foldl (fun (r : BitVec 2 × Bytes × Half) q =>
    let (st, bs, y) := r
    let p := { p with addr := q.1 }
    let (e, cs, z) := if y.policyErr m p q.2 false then (2#2, zeros q.2, y) else y.readAt m p q.2
    (joinStatus st e, bs ++ cs, z)) (0#2, [], x)

/-- Write the packets of an access, each judged and served alone: a packet in error has no effect. -/
def Half.writePackets (x : Half) (m : Master) (p : Place) (bs : Bytes) : BitVec 2 × Half :=
  (packetsOf (packetSpan p.region) p.addr bs.length).foldl (fun (r : BitVec 2 × Half) q =>
    let (st, y) := r
    let cs := (bs.drop (q.1 - p.addr)).take q.2
    let p := { p with addr := q.1 }
    let (e, z) := if y.policyErr m p q.2 true then (2#2, y) else y.writeAt m p cs
    (joinStatus st e, z)) (0#2, x)

/-! ## Accesses that the blocks of a half make themselves -/

/-- A block reads `n` bytes at `a`: what it is delivered, zeros in place of what an error withholds (R238), and the half. -/
def Half.devRead (x : Half) (m : Master) (a n : Nat) : Bytes × Half :=
  match x.placeOf m a n with
  | some p => (x.readPackets m p n).2
  | none => (zeros n, x)

/-- A block writes bytes at `a`; a packet in error has no effect. -/
def Half.devWrite (x : Half) (m : Master) (a : Nat) (bs : Bytes) : Half :=
  match x.placeOf m a bs.length with
  | some p => (x.writePackets m p bs).2
  | none => x

/-- HBM as a reader of a whole image is delivered it: 0 in every word with an uncorrectable error (R238, R239). -/
def Half.soundMem (x : Half) : List Host.Cell :=
  x.ar.ecc.foldl (fun m (e : Nat × Option Bool) =>
    if e.2 == some true && decide (hbmBase ≤ e.1) && decide (e.1 < 0x1C00000000) then wrBytes m e.1 (zeros 8) else m) x.mem

/-- What reading `n` bytes of HBM at `a` leaves: corrected words written back, uncorrectable ones recorded (R238, R239). -/
def Half.noteReads (x : Half) (a n : Nat) : Half :=
  x.ar.ecc.foldl (fun y (e : Nat × Option Bool) =>
    if decide (a < e.1 + 8) && decide (e.1 < a + n) then
      (match e.2 with
       | some true => y.memUncorr e.1
       | some false => y.memCorr e.1
       | none => y)
    else y) x

end Sys2Proof.Machine
end

