-- ==== Sys2Proof/Machine/Msix.lean ====
section
/-!
DEFINITION. Machine/Msix.lean: interrupts of the endpoint and the host writes they may be ordered behind.
-/

namespace Sys2Proof.Machine

/-! ## MSI-X and host writes (R478, R479) -/

/-- What an unlisted word of the MSI-X table reads as: Mask set in Vector Control, else 0 (log entry 5). -/
def mxReset (i : Nat) : Word := if i % 4 = 3 then 1#32 else 0#32

/-- A word of the MSI-X table. -/
def Half.mxWord (x : Half) (i : Nat) : Word := sget x.pci.mxTab i (mxReset i)

/-- The endpoint may issue requests: HOST_EN and Bus Master Enable (R476). -/
def Half.busMaster (x : Half) : Bool := x.rbit Reg.pciCtrl 0 && x.rbit Reg.pciStatus 3

/-- The message of a vector leaves. -/
def Half.msixSend (x : Half) (v : Nat) : Half :=
  x.emit (.msix (BitVec.ofNat 8 v)
    (BitVec.ofNat 64 ((x.mxWord (4 * v)).toNat + (x.mxWord (4 * v + 1)).toNat * 2 ^ 32)) (x.mxWord (4 * v + 2)))

/-- A message is raised while the endpoint may send it: sent, or pended under a mask (R478). -/
def Half.msixNow (x : Half) (v : Nat) : Half :=
  if x.busMaster && x.rbit Reg.pciStatus 2 then
    if x.pci.funcMask || wbit (x.mxWord (4 * v + 3)) 0 then
      { x with pci := { x.pci with mxPend := sput x.pci.mxPend v false true } }
    else x.msixSend v
  else x

/-- Raise MSI-X vector `v`; while the link is down the message is discarded (R479), in fallow it is held (R556). -/
def Half.msix (x : Half) (v : Nat) : Half :=
  if x.pci.down then x
  else if x.sys.fallow.isSome then { x with pci := { x.pci with late := x.pci.late ++ [v] } }
  else x.msixNow v

/-- An interrupt of a block whose register holds IRQ_EN in bit 31 and VECTOR in bits [7:0]. -/
def Half.irq (x : Half) (reg : Nat) : Half := if x.rbit reg 31 then x.msix (x.rfld reg 0 8) else x

/-! ## Queue pairs of the adapter fabric (R415) -/

/-- Queue pair `q` is bound to the fabric. -/
def Half.qBound (x : Half) (q : Nat) : Bool :=
  if q < 32 then x.rbit Reg.afbTxqLo q else x.rbit Reg.afbTxqHi (q - 32)

/-- The bus address of a queue pair's ring at `a`, or of a buffer: for a bound queue pair the ring base is an SP7 offset
and every address a device address, which stands 2^64 above the host's bus addresses. -/
def Half.qRing (x : Half) (q a : Nat) : Nat := if x.qBound q then 2 ^ 64 + spAddr 7 + a else a
def Half.qAddr (x : Half) (q a : Nat) : Nat := if x.qBound q then 2 ^ 64 + a else a

/-- A write of a bound queue pair, made for the fabric; outside its reach it has no effect (R405, R415). -/
def Half.fabWrite (x : Half) (a : Nat) (bs : Bytes) : Half :=
  if x.fabReach a bs.length then x.devWrite .afb a bs else x

/-- A write to host memory, with the message ordered behind it, if any; held while the link is down (R479) or the endpoint
may not issue requests (R476). -/
def Half.hostWrite (x : Half) (a : Nat) (bs : Bytes) (vec : Option Nat) : Half :=
  if 2 ^ 64 ≤ a then x.fabWrite (a - 2 ^ 64) bs
  else if x.pci.down || !x.busMaster then { x with pci := { x.pci with held := x.pci.held ++ [(a, bs, vec)] } }
  else
    let y := x.emit (.hostWrite (BitVec.ofNat 64 a) bs)
    match vec with
    | some v => y.msixNow v
    | none => y

end Sys2Proof.Machine
end

