-- ==== Sys2Proof/Machine/Trace.lean ====
section
/-!
DEFINITION. Machine/Trace.lean: the clock of the time block as it is read, and the trace funnel: sources, FIFOs, the
sinks and the event machine (R487, R529 to R541).
-/

namespace Sys2Proof.Machine

/-! ## The PHC as it is read (R487, R488) -/

/-- A time in units of 2^-32 ns as SEC, NS and FRAC, truncated to 2^-16 ns. -/
def ptpOf (t : Nat) : PtpTime :=
  ⟨BitVec.ofNat 48 (t / 2 ^ 32 / 1000000000), BitVec.ofNat 32 (t / 2 ^ 32 % 1000000000), BitVec.ofNat 16 (t / 2 ^ 16)⟩

/-- A time in units of 2^-32 ns. -/
def ptpUnits (t : PtpTime) : Nat := (t.sec.toNat * 1000000000 + t.ns.toNat) * 2 ^ 32 + t.frac.toNat * 2 ^ 16

/-- The PHC of a half. -/
def Half.phc (x : Half) : PtpTime := ptpOf x.ptm.time

/-! ## Packets (R530 to R533) -/

/-- The sources that are enabled by a bit of `TRC_SRC_EN`, with that bit (R529). -/
def traceSources : List (Nat × Nat) :=
  [(1, 0), (2, 1), (3, 2)] ++ (List.range 16).map (fun k => (0x10 + k, 16 + k)) ++ [(0x20, 3)]

/-- A source is enabled (R529); the steward's is not while debug is closed to it. -/
def Half.srcEnabled (x : Half) (src : Nat) : Bool :=
  match traceSources.find? (fun e => e.1 == src) with
  | some e => x.rbit Reg.trcSrcEn e.2 && (src != 0x20 || (x.rbit Reg.secStatus 25 && x.rbit Reg.secStatus 23))
  | none => false

/-- Tracing is ON (R539). -/
def Half.traceOn (x : Half) : Bool := x.rbit Reg.trcCtrl 31 && x.rbit Reg.trcStatus 29

/-- A header word (R530). -/
def traceHead (src typ len delta : Nat) : Word := BitVec.ofNat 32 (src * 2 ^ 25 + typ * 2 ^ 21 + len * 2 ^ 18 + delta)

/-- The SYNC packet of a source (R532). -/
def Half.syncPacket (x : Half) (src reason : Nat) : List Word :=
  let t := x.phc
  let ns := if reason = 2 then x.sys.slept * 40 else 0
  [traceHead src 0xC 6 0, BitVec.ofNat 32 t.sec.toNat, BitVec.ofNat 32 (t.sec.toNat / 2 ^ 32 + t.frac.toNat * 2 ^ 16), t.ns,
   BitVec.ofNat 32 ns, BitVec.ofNat 32 (ns / 2 ^ 32), BitVec.ofNat 32 reason]

/-- A packet with its stamp, `g` cycles after the previous one of its source, with the OVF or SYNC it needs (R531). -/
def Half.stamped (x : Half) (src typ g : Nat) (payload : List Word) : List (List Word) :=
  if g < 2 ^ 18 then [traceHead src typ payload.length g :: payload]
  else if g < 2 ^ 50 then
    [[traceHead src 0xE 1 0, BitVec.ofNat 32 (g / 2 ^ 18)], traceHead src typ payload.length (g % 2 ^ 18) :: payload]
  else [x.syncPacket src 3, traceHead src typ payload.length 0 :: payload]

/-- The words of a list of packets. -/
def traceWords (l : List (List Word)) : Nat := l.foldl (fun n p => n + p.length) 0

/-- The interrupt of the funnel (R545). -/
def Half.trcIrq (x : Half) : Half := x.irq Reg.trcIrq

/-- A packet is dropped or discarded (R534, R536). -/
def Half.traceDrop (x : Half) : Half := x.countFld Reg.trcDrop 0 32 1

/-- Put packets into the FIFO of a source, 64 words deep; where they do not fit they are dropped, and the next packet that
fits goes behind a LOST (R534). -/
def Half.fifoPut (x : Half) (src : Nat) (mk : Nat → List (List Word)) : Half :=
  let last := (sget x.trc.last src none).getD x.trc.tclk
  let (front, at_) := match sget x.trc.lost src none with
    | some (n, t0) => (x.stamped src 0xF (t0 - last) [BitVec.ofNat 32 n], t0)
    | none => ([], last)
  let ps := front ++ mk (x.trc.tclk - at_)
  let q := sget x.trc.fifo src []
  if traceWords (q ++ ps) ≤ 64 then
    { x with trc := { x.trc with
      fifo := sput x.trc.fifo src [] (q ++ ps), last := sput x.trc.last src none (some x.trc.tclk)
      lost := sput x.trc.lost src none none } }
  else
    let v := match sget x.trc.lost src none with
      | some (n, t0) => (n + 1, t0)
      | none => (1, x.trc.tclk)
    (({ x with trc := { x.trc with lost := sput x.trc.lost src none (some v) } }.traceDrop).setRBit Reg.trcStatus 0 true).trcIrq

/-- A source sends a packet while tracing is ON and the source is enabled. -/
def Half.trace (x : Half) (src typ : Nat) (payload : List Word) : Half :=
  if x.traceOn && x.srcEnabled src then x.fifoPut src (fun g => x.stamped src typ g payload) else x

/-- A packet with no time relation to the one before it: SYNC, STOP, SLEEP (R532). -/
def Half.traceMark (x : Half) (src : Nat) (p : List Word) : Half := x.fifoPut src (fun _ => [p])

/-- Every enabled source does `f`. -/
def Half.eachSource (x : Half) (f : Half → Nat → Half) : Half :=
  traceSources.foldl (fun y e => if y.srcEnabled e.1 then f y e.1 else y) x

/-! ## Sinks (R535 to R537) -/

/-- The ring of the selected sink: its first byte and its size. -/
def Half.traceRing (x : Half) : Nat × Nat :=
  if x.rfld Reg.trcCtrl 28 2 = 1 then (spAddr 3, 0x100000)
  else (hbmBase + x.rfld Reg.trcHbmBase 0 16 * 2 ^ 20, x.rfld Reg.trcHbmSize 0 16 * 2 ^ 20)

/-- The ring is full: WRAP = 0 and every block written (R536). -/
def Half.traceFull (x : Half) : Bool :=
  !x.rbit Reg.trcCtrl 30 && decide (x.traceRing.2 / 256 ≤ x.reg64 Reg.trcBlocksLo Reg.trcBlocksHi)

/-- Write the block in the making, filled up with PAD (R536). -/
def Half.blockDone (x : Half) : Half :=
  let (base, size) := x.traceRing
  let n := x.reg64 Reg.trcBlocksLo Reg.trcBlocksHi
  let w := x.reg64 Reg.trcWptrLo Reg.trcWptrHi
  let head := BitVec.ofNat 32 (n % 2 ^ 24 * 256 + x.trc.first)
  let ws := head :: (x.trc.block ++ List.replicate (63 - x.trc.block.length) 0#32)
  let y := x.devWrite .trace (base + w) (ws.flatMap (fun v => leBytes 4 v.toNat))
  let y := (y.setReg64 Reg.trcBlocksLo Reg.trcBlocksHi (n + 1)).setReg64 Reg.trcWptrLo Reg.trcWptrHi ((w + 256) % max 256 size)
  let y := { y with trc := { y.trc with block := [], first := 0 } }
  let y := if (n + 1) % max 1 (size / 256) = size / 256 * 3 / 4 then
      { y with trc := { y.trc with evts := y.trc.evts ++ [0x211] } }.trcIrq else y
  if y.traceFull then (y.setRBit Reg.trcStatus 1 true).trcIrq else y

/-- The ALIGN packet (R537). -/
def alignPacket : List Word := [0x002C0000#32, 0xA5A5A5A5#32, 0x5A5A5A5A#32, 0xA5A5A5A5#32]

/-- A word goes to the port, behind those that wait there (R537). -/
def Half.portWord (x : Half) (w : Word) : Half :=
  let y := x.emit (.traceWord w)
  { y with trc := { y.trc with port := y.trc.port + 1, portq := y.trc.portq ++ [w] } }

/-- A word reaches the sink; `head` marks a header word. -/
def Half.sinkWord (x : Half) (head : Bool) (w : Word) : Half :=
  match x.rfld Reg.trcCtrl 28 2 with
  | 0 => x
  | 3 => x.portWord w
  | _ =>
    if x.traceFull then x
    else
      let i := x.trc.block.length + 1
      let y := { x with trc := { x.trc with
        block := x.trc.block ++ [w], first := if head && x.trc.first == 0 then i else x.trc.first } }
      if i = 63 then y.blockDone else y

/-- ALIGN goes out on the port. -/
def Half.sendAlign (x : Half) : Half :=
  let y := alignPacket.foldl (fun y w => y.portWord w) x
  { y with trc := { y.trc with port := 0 } }

/-- A packet reaches the sink (R534, R536, R537). -/
def Half.sinkPacket (x : Half) (p : List Word) : Half :=
  let ring := x.rfld Reg.trcCtrl 28 2 == 1 || x.rfld Reg.trcCtrl 28 2 == 2
  if ring && x.traceFull then (x.traceDrop.setRBit Reg.trcStatus 1 true).trcIrq
  else
    match p with
    | [] => x
    | w :: ws =>
      let y := ws.foldl (fun y v => y.sinkWord false v) (x.sinkWord true w)
      if y.rfld Reg.trcCtrl 28 2 == 3 && decide (4096 ≤ y.trc.port) then y.sendAlign else y

/-- The source whose packet the round robin takes next. -/
def Half.nextSource (x : Half) : Option Nat :=
  let ids := traceSources.map (fun e => e.1)
  let has (i : Nat) : Bool := !(sget x.trc.fifo i []).isEmpty
  match ids.find? (fun i => decide (x.trc.turn < i) && has i) with
  | some i => some i
  | none => ids.find? has

/-- The funnel takes one packet, if one waits. -/
def Half.tracePacket (x : Half) : Half :=
  match x.nextSource with
  | some i =>
    match sget x.trc.fifo i [] with
    | p :: q =>
      let y := x.sinkPacket p
      { y with trc := { y.trc with fifo := sput y.trc.fifo i [] q, turn := i, busy := p.length - 2 } }
    | [] => x
  | none => x

/-- The funnel takes up to `n` packets. -/
def Half.tracePackets : Half → Nat → Half
  | x, 0 => x
  | x, n + 1 => x.tracePacket.tracePackets n

/-- The funnel takes everything that waits and completes its block (R536, R540, R541). -/
def Half.traceDrain (x : Half) : Half :=
  let n := x.trc.fifo.foldl (fun n (e : Nat × List (List Word)) => n + e.2.length) 0
  let y := x.tracePackets n
  let ring := y.rfld Reg.trcCtrl 28 2 == 1 || y.rfld Reg.trcCtrl 28 2 == 2
  if ring && !y.trc.block.isEmpty then y.blockDone else y

/-! ## Start and stop (R538 to R540) -/

/-- The event machine enters a state: ON follows its bit while EN is 1, and sources start or stop with it. -/
def Half.traceState (x : Half) (k : Nat) : Half :=
  let on := x.rbit Reg.trcCtrl 31 && x.rbit (Reg.trcEmS k) 31
  let was := x.traceOn
  let y := x.setRFld Reg.trcStatus 30 2 k
  if on && !was then
    (y.setRBit Reg.trcStatus 29 true).eachSource (fun z i => z.traceMark i (z.syncPacket i 0))
  else if was && !on then
    ((y.eachSource (fun z i => z.traceMark i [traceHead i 0xB 0 0])).setRBit Reg.trcStatus 29 false).traceDrain
  else y

/-- An event of the machine is latched until the next evaluation (R538, R539). -/
def Half.traceEvt (x : Half) (e : Nat) : Half :=
  if x.rbit Reg.trcCtrl 31 then { x with trc := { x.trc with evts := x.trc.evts ++ [e] } } else x

/-- The event machine evaluates the events latched since its last evaluation: arc 0 before arc 1 (R539). -/
def Half.traceEval (x : Half) : Half :=
  let es := x.trc.evts
  if es.isEmpty then x
  else
    let y := { x with trc := { x.trc with evts := [] } }
    let r := Reg.trcEmS (x.rfld Reg.trcStatus 30 2)
    if x.rbit Reg.trcCtrl 31 = false then y
    else if es.contains (x.rfld r 0 10) then y.traceState (x.rfld r 12 2)
    else if es.contains (x.rfld r 16 10) then y.traceState (x.rfld r 28 2)
    else y

/-! ## The port's pins (R537) -/

/-- The next nibble comes onto TRC_D0 to TRC_D3; where no word waits the port begins a PAD, or the ALIGN that is due. -/
def Half.portNibble (x : Half) : Half :=
  let y :=
    if x.trc.portq.isEmpty && x.rbit Reg.trcCtrl 31 then
      if 4096 ≤ x.trc.port then x.sendAlign
      else { x with trc := { x.trc with portq := [0#32], port := x.trc.port + 1 } }
    else x
  let w := y.trc.portq.headD 0#32
  { y with trc := { y.trc with pdata := BitVec.ofNat 4 (w.toNat / 2 ^ (4 * y.trc.edge)) } }

/-- An edge of TRC_CLK takes the nibble that stands; the eighth ends the word. -/
def Half.portEdge (x : Half) : Half :=
  let t := { x.trc with pclk := !x.trc.pclk, edge := x.trc.edge + 1 }
  { x with trc := if t.edge = 8 then { t with edge := 0, portq := t.portq.drop 1 } else t }

/-- A cycle of the time clock at the port: TRC_CLK has an edge in each, each second or each fourth, and the data change midway
between edges (R537). -/
def Half.portTick (x : Half) : Half :=
  let going := (x.rbit Reg.trcCtrl 31 && x.rfld Reg.trcCtrl 28 2 == 3) || !x.trc.portq.isEmpty
  if !going then x
  else
    let p := 2 ^ min 2 (x.rfld Reg.trcCtrl 26 2)
    let c := x.trc.pcnt
    let y := if c = 0 then x.portEdge else x
    let y := if c = p / 2 then y.portNibble else y
    { y with trc := { y.trc with pcnt := (c + 1) % p } }

/-- The port starts, or starts again after fallow: TRC_CLK is low, ALIGN comes first (R537). -/
def Half.portStart (x : Half) : Half :=
  let p := 2 ^ min 2 (x.rfld Reg.trcCtrl 26 2)
  let y := ({ x with trc := { x.trc with portq := [], edge := 0, pclk := false, pcnt := p / 2 } } : Half).sendAlign
  if p = 1 then y.portNibble else y

/-- The port has finished its words and holds TRC_CLK low (R541). -/
def Half.portRest (x : Half) : Half :=
  { x with trc := { x.trc with portq := [], edge := 0, pclk := false, pdata := 0#4 } }

/-- The sink can accept a packet (R534): the port while at most the word under way stands at it. -/
def Half.sinkReady (x : Half) : Bool := x.rfld Reg.trcCtrl 28 2 != 3 || decide (x.trc.portq.length ≤ 1)

/-- A cycle of the time clock: the event machine evaluates, the funnel moves up to 8 bytes, the port goes on (R534, R537, R539). -/
def Half.traceTick (x : Half) : Half :=
  let y := ({ x with trc := { x.trc with tclk := x.trc.tclk + 1 } } : Half).traceEval
  let y :=
    if 2 < y.trc.busy then { y with trc := { y.trc with busy := y.trc.busy - 2 } }
    else
      let z : Half := { y with trc := { y.trc with busy := 0 } }
      if z.sinkReady then z.tracePacket else z
  y.portTick

end Sys2Proof.Machine
end

