-- ==== Sys2Proof/Machine/Flags.lean ====
section
/-!
DEFINITION. Machine/Flags.lean: event flags of the sequencer and the end of its blocking instructions.
-/

namespace Sys2Proof.Machine

/-! ## Sequencer registers (R192) and the end of a blocking instruction -/

/-- Register `wN`; w0 reads 0. -/
def Half.w (x : Half) (i : BitVec 5) : DWord := if i = 0#5 then 0#64 else sget x.seq.w i.toNat 0#64

/-- Write register `wN`; writes to w0 are ignored. -/
def Half.setW (x : Half) (i : BitVec 5) (v : DWord) : Half :=
  if i = 0#5 then x else { x with seq := { x.seq with w := sput x.seq.w i.toNat 0#64 v } }

/-- Go on to the next instruction word. -/
def Half.advPc (x : Half) : Half := { x with seq := { x.seq with pc := x.seq.pc + 1#14 } }

/-- A status word of R199. -/
def statusWord (code event : Nat) : DWord := BitVec.ofNat 64 (code + event * 2 ^ 16)

/-- The OP of the instruction that waits (R196). -/
def Wait.op : Wait → Nat
  | .none => 0
  | .run _ op => op
  | .hold _ => 0x33
  | .stop _ => 0x34
  | .waite _ _ => 0x35
  | .restore _ => 0x36
  | .fallow _ => 0x37
  | .ckpt _ => 0x3E
  | .arm _ => 0x3C
  | .abrt _ => 0x3D

/-- The sequencer's trace of a run-control instruction that completes (R533). -/
def Half.traceCtl (x : Half) (op : Nat) (v : DWord) : Half :=
  if op = 0x35 then x.trace 1 4 [BitVec.ofNat 32 (v.toNat % 512)]
  else x.trace 1 3 [BitVec.ofNat 32 (x.seq.pc.toNat * 2 ^ 16 + op), v.setWidth 32]

/-! ## Events (R198, R212) -/

/-- The pending flag of event `n`. -/
def Half.pendFlag (x : Half) (n : Nat) : Bool := x.rbit (Reg.seqEvtPend (n / 32)) (n % 32)

/-- Set or clear the pending flag of event `n`. -/
def Half.setPendFlag (x : Half) (n : Nat) (b : Bool) : Half := x.setRBit (Reg.seqEvtPend (n / 32)) (n % 32) b

/-- Event `n` is enabled for WAITE. -/
def Half.evtEn (x : Half) (n : Nat) : Bool := x.rbit (Reg.seqEvtEn (n / 32)) (n % 32)

/-- The action of event `n`. -/
def Half.evtAct (x : Half) (n : Nat) : Nat := x.rfld (Reg.seqEvtAct (n / 16)) (2 * (n % 16)) 2

/-- The lowest event below `n + 1` counted from `k` that is pending and enabled. -/
def Half.lowestEvt (x : Half) : Nat → Nat → Option Nat
  | 0, _ => none
  | n + 1, k => if x.pendFlag k && x.evtEn k then some k else x.lowestEvt n (k + 1)

/-- Two requests that stand together: the first keeps its code and event, but a stop goes before a hold. -/
def HoldReq.join (a b : HoldReq) : HoldReq :=
  { (if b.stop && !a.stop then b else a) with auto := a.auto && b.auto }

/-- Ask for a hold or a stop in a run in progress (R190). In HELD the run is held already: a hold asked for there only
keeps the channels from releasing it (R411, log entry 27). -/
def Half.request (x : Half) (code : Nat) (event : Option Nat) (stop : Bool) : Half :=
  if !x.inRun then x
  else if x.run.state == .held && !stop then
    { x with run := { x.run with cond := x.run.cond.map (fun c => { c with auto := false }) } }
  else
    let q : HoldReq := { code := code, event := event, cyc := x.run.cyc, stop := stop, auto := false }
    { x with run := { x.run with req := some (match x.run.req with
      | some p => p.join q
      | none => q) } }

/-- A sequencer fault (R207, R215): EXEC_STATE becomes FAULT and the hold of R190 is asked for. -/
def Half.seqFault (x : Half) (cause : Nat) : Half :=
  let y := x.setReg Reg.seqFault (BitVec.ofNat 32 (x.seq.pc.toNat * 2 ^ 8 + cause * 2 ^ 4 + 1))
  let z := { y with seq := { y.seq with exec := .fault, wait := .none } }
  (z.request 0x10 none false).trace 1 5 [BitVec.ofNat 32 (x.seq.pc.toNat * 16 + cause)]

/-- An OP that R196 reserves. -/
def opReserved (op : Nat) : Bool :=
  (decide (0x0C ≤ op) && decide (op ≤ 0x0F)) || op == 0x17 || op == 0x1F || (decide (0x29 ≤ op) && decide (op ≤ 0x2F))

/-- The instruction word at PC; a word of SP0 with an uncorrectable error is delivered as 0 (R238). -/
def Half.seqWord (x : Half) : Word :=
  let a := spAddr 0 + x.seq.pc.toNat * 4
  if x.eccAt (a / 8 * 8) == some true then 0#32 else BitVec.ofNat 32 (x.rdMem a 4)

/-- The fetch of the next instruction (R215): PROG_RANGE and RSVD_OPC fault. -/
def Half.fetched (x : Half) : Half :=
  if x.seq.exec ≠ .exec then x
  else if x.seq.progWords ≤ x.seq.pc.toNat then x.seqFault 3
  else if opReserved (x.seqWord.toNat % 64) then x.seqFault 1
  else x

/-- A blocking instruction ends: `wd` takes its result, and the sequencer executes on. -/
def Half.endWait (x : Half) (wd : BitVec 5) (v : DWord) : Half :=
  let y := ((x.traceCtl x.seq.wait.op v).setW wd v).advPc
  ({ y with seq := { y.seq with exec := .exec, wait := .none } } : Half).fetched

/-- End a WAITE whose condition holds (R196). -/
def Half.waiteCheck (x : Half) : Half :=
  match x.seq.wait with
  | .waite wd _ =>
    match x.lowestEvt 281 0 with
    | some n => (x.setPendFlag n false).endWait wd (BitVec.ofNat 64 n)
    | none => x
  | _ => x

/-- A hold or stop is recorded (R198, R210): `SEQ_STOPINFO` takes its code and the number of its event, also where an event
action stops the run (log entry 80), and `SEQ_EVT_CYC` the cycle of that event. -/
def Half.noteStop (x : Half) (code : Nat) (event : Option Nat) (cyc : DWord) : Half :=
  let y := x.setReg Reg.seqStopinfo (BitVec.ofNat 32 (code + event.getD 0 * 2 ^ 16))
  if event.isSome then y.setReg64 Reg.seqEvtCycLo Reg.seqEvtCycHi cyc.toNat else y

/-- Event `n` is raised: its pending flag is set, its action applies while a run is in progress, and a WAITE for it
ends (R198). A STOP action in HELD takes effect at once (R191), which `State.settle` adds. -/
def Half.event (x : Half) (n : Nat) : Half :=
  let y := x.setPendFlag n true
  let z := match y.evtAct n with
    | 1 => y.request 7 (some n) false
    | 2 => y.request 7 (some n) true
    | _ => y
  z.waiteCheck.traceEvt n

end Sys2Proof.Machine
end

