-- ==== Sys2Proof/Machine/Operands.lean ====
section
/-!
DEFINITION. Machine/Operands.lean: the operand forms of the Boolean processors (R55), of the switches (R118, R119)
and of the sequencer (R195).
-/

namespace Sys2Proof.Machine

/-! ## Boolean processors -/

/-- Opcodes of a BP (R61). -/
inductive BpOp where
  | nop | eval | evalc | trig | assert_ | reserved
  deriving DecidableEq, Repr

/-- The opcode and the operand fields of a stored word of BP `g` (R52). -/
def decodeBp (g v : Nat) : BpOp × BpWord :=
  (match natField v 60 4 with
   | 0 => .nop
   | 1 => .eval
   | 2 => .evalc
   | 3 => .trig
   | 4 => .assert_
   | _ => .reserved,
   { bp := BitVec.ofNat 16 g, fn := BitVec.ofNat 8 (natField v 52 8), a := BitVec.ofNat 13 (natField v 39 13),
     b := BitVec.ofNat 13 (natField v 26 13), c := BitVec.ofNat 13 (natField v 13 13),
     d := BitVec.ofNat 13 (natField v 0 13) })

/-- An operand code the specification reserves (R55). -/
def operandReserved (c : BitVec 13) : Bool := decide (0x1060 ≤ c.toNat) && decide (c.toNat ≤ 0x1FFD)

/-- No slot write in flight. -/
def noWrite : SlotWrite := ⟨0, 4096, false⟩

/-- Slot `s` of BP `g` as an instruction of step `t` reads it (R66): a write of that step or of the step before is
not seen. -/
def Half.slotAt (x : Half) (t g s : Nat) : Bool :=
  let w := sget x.ar.infl g noWrite
  if w.slot = s ∧ t < w.time + 2 then w.old else x.slot g s

/-- A destination register as a reader of step `t` sees it (R122): a write of that step is not seen. -/
def Half.dstAt (x : Half) (t key : Nat) : Bool :=
  let r := sget x.ar.dst key DstReg.zero
  if r.time = t then r.old else r.val

/-- The result of BP `g` at the step before position `pos` (R56, R57, R83). -/
def Half.resultBefore (x : Half) (first : Bool) (pos g : Nat) : Bool :=
  if first || pos == 0 || x.unserved g then false else x.slot g (pos - 1)

/-- The value of an operand code for BP `g` (R55). -/
def Half.operand (x : Half) (t : Nat) (first : Bool) (pos g : Nat) (c : BitVec 13) : Bool :=
  let n := c.toNat
  if n < 0x1000 then x.slotAt t g n
  else if n < 0x1040 then x.resultBefore first pos (g / 64 * 64 + (n - 0x1000))
  else if n < 0x1060 then x.dstAt t (g / 1024 * 2048 + g / 64 % 16 * 32 + (n - 0x1040))
  else n == 0x1FFF

/-- The result of a palette entry for inputs a, b, c, d (R72). -/
def palBit (entry : Nat) (a b c d : Bool) : Bool :=
  natBit entry (bitNat d * 8 + bitNat c * 4 + bitNat b * 2 + bitNat a)

/-- Palette entry `e` of the cluster of BP `g`. -/
def Half.palette (x : Half) (g e : Nat) : Nat := x.rdMem (palAddr (g / 1024) (g / 64 % 16) e) 2

/-! ## Switches -/

/-- A move of a switch instruction (R115). -/
structure Move where
  v   : Bool
  inv : Bool
  dst : Nat
  src : Nat
  deriving DecidableEq, Repr

/-- The move that a 24-bit word spells (R115). -/
def decodeMove (w : Nat) : Move := ⟨natBit w 23, natBit w 22, natField w 11 11, natField w 0 11⟩

/-- A source code reserved in this tile (R118). -/
def srcReserved (tile c : Nat) : Bool :=
  (decide (0x798 ≤ c) && decide (c < 0x7FE)) || (decide (0x790 ≤ c) && decide (c < 0x798) && decide (6 ≤ tile % 8))

/-- A destination code reserved in this tile (R119). -/
def dstReserved (tile c : Nat) : Bool :=
  decide (0x698 ≤ c) || (decide (0x690 ≤ c) && decide (6 ≤ tile % 8)) ||
  (decide (0x400 ≤ c) && decide (c < 0x600) && decide (0x5C ≤ c % 128))

/-- A BROUT destination (R119). -/
def isBrout (c : Nat) : Bool := decide (0x680 ≤ c) && decide (c < 0x690)

/-- The neighbour of a tile in direction `d` (R120): 0 east, 1 west, 2 south, 3 north, on an 8 × 8 torus. -/
def neighbour (tile d : Nat) : Nat :=
  let x := tile % 8
  let y := tile / 8
  match d with
  | 0 => y * 8 + (x + 1) % 8
  | 1 => y * 8 + (x + 7) % 8
  | 2 => (y + 1) % 8 * 8 + x
  | _ => (y + 7) % 8 * 8 + x

/-- The opposite direction (R120). -/
def opposite (d : Nat) : Nat := if d % 2 = 0 then d + 1 else d - 1

/-- The hop distance of two tiles (R25). -/
def hops (a b : Nat) : Nat :=
  let dx := if a % 8 ≤ b % 8 then b % 8 - a % 8 else a % 8 - b % 8
  let dy := if a / 8 ≤ b / 8 then b / 8 - a / 8 else a / 8 - b / 8
  min dx (8 - dx) + min dy (8 - dy)

/-- The LSC that the half uses (R164), as a number. -/
def Half.lscNat (x : Half) : Nat := x.run.lsc.toNat

/-- The steps from LSC `b` up to LSC `a`, modulo 2^48 (R148). -/
def lscDist (a b : Nat) : Nat := (a + 2 ^ 48 - b % 2 ^ 48) % 2 ^ 48

/-- LIN `k` of a tile at LSC `l` (R139, R156); a bit that no received window of an ACTIVE bundle carries reads 0. -/
def Half.linAt (x : Half) (l tile k : Nat) : Bool :=
  let i := tile / 8 * 8 + k
  match x.ar.lin.find? (fun w => w.bundle / 2 == tile % 8 && decide (w.lo ≤ i) && decide (i < w.lo + w.e)
      && decide (lscDist l w.start < w.span) && (sget x.bundle w.bundle Bundle.zero).st == .active) with
  | some w => natBit w.bits (lscDist l w.start * w.e + (i - w.lo))
  | none => false

/-- BRIN `k` of a tile at step `t` (R123): the latest bridge word due by then. In PAIRED and SPLIT it reads 0 (R137). -/
def Half.brinAt (x : Half) (t tile k : Nat) : Bool :=
  if x.run.mode = .joined then
    match (x.ar.bridge.filter (fun w => w.tile == tile && w.k == k && decide (w.due ≤ t))).getLast? with
    | some w => w.val
    | none => sget x.ar.brin (tile * 16 + k) false
  else false

/-- The value of a source code in a tile (R121); read data of a port that is OFF, or at or above its width, reads 0 (R220). -/
def Half.source (x : Half) (t : Nat) (first : Bool) (pos tile c : Nat) : Bool :=
  if c < 0x400 then x.resultBefore first pos (tile * 1024 + c)
  else if c < 0x600 then
    let d := (c - 0x400) / 128
    x.dstAt t (neighbour tile d * 2048 + 0x200 + opposite d * 128 + c % 128)
  else if c < 0x700 then
    let p := (c - 0x600) / 64
    x.portTarget tile p != 0 && decide (c % 64 < 8 * x.portBytes tile p) && (sget x.ar.rdata (tile * 4 + p) 0#64).getLsbD (c % 64)
  else if c < 0x780 then sget x.ar.din (tile * 128 + (c - 0x700)) false
  else if c < 0x790 then x.brinAt t tile (c - 0x780)
  else if c < 0x798 then (if tile % 8 < 6 then x.linAt x.lscNat tile (c - 0x790) else false)
  else c == 0x7FF

/-! ## Sequencer -/

/-- Zero extension of a 16-bit immediate to 64 bits. -/
def zext16 (i : BitVec 16) : DWord := i.setWidth 64
/-- Sign extension of a 16-bit immediate to 64 bits. -/
def sext16 (i : BitVec 16) : DWord := i.signExtend 64
/-- The number of the low six bits, a shift count (R196). -/
def shamt (v : DWord) : Nat := v.toNat % 64

end Sys2Proof.Machine
end

