-- ==== Sys2Proof/Machine/Bp.lean ====
section
/-!
DEFINITION. Machine/Bp.lean: one step of a Boolean processor (R52 to R96).
-/

namespace Sys2Proof.Machine

/-- Record a run-time fault of the BP array (R85 to R87, R95): the first since FAULT was cleared sets cause, location
and cycle. It reaches the sequencer as event 256 at the next B8. -/
def Half.bpFault (x : Half) (g pos cause field : Nat) : Half :=
  let n := g / 1024
  let y := x.countFld (Reg.bpaStatus n) 16 16 1
  let z := if y.rbit (Reg.bpaStatus n) 0 then y
    else
      (((y.setRBit (Reg.bpaStatus n) 0 true).setRFld (Reg.bpaStatus n) 4 4 cause).setReg (Reg.bpaFaultLoc n)
        (BitVec.ofNat 32 (g / 64 % 16 * 2 ^ 20 + g % 64 * 2 ^ 14 + field * 2 ^ 12 + pos))).setReg64
          (Reg.bpaFaultCycLo n) (Reg.bpaFaultCycHi n) x.run.cyc.toNat
  let w := { z with ar := { z.ar with bpFault := true } }
  if cause = 3 ∨ cause = 4 then w.recoverable else w

/-- A detection of a corrected error in a word or palette entry of tile `n` at address `a` (R91): it sets ECC_CORR,
is counted at bit `lo` of `BPA_ECC_COUNT`, and becomes the tile's pending correction if there is none. -/
def Half.bpDetect (x : Half) (n a lo : Nat) : Half :=
  let y := (x.setRBit (Reg.bpaStatus n) 2 true).countFld (Reg.bpaEccCount n) lo 16 1
  if sget y.ar.pendBp n 0 = 0 then { y with ar := { y.ar with pendBp := sput y.ar.pendBp n 0 (a + 1) } } else y

/-- Write the result of BP `g` at step `t`, position `pos` (R53, R66). -/
def Half.writeResult (x : Half) (t g pos : Nat) (v : Bool) : Half :=
  let y := { x with ar := { x.ar with infl := sput x.ar.infl g noWrite ⟨t, pos, x.slot g pos⟩ } }
  y.setSlot g pos v

/-- The lowest-numbered reserved operand field of a word, if any: 0 = A, 1 = B, 2 = C, 3 = D (R86). -/
def firstReserved (w : BpWord) : Option Nat :=
  if operandReserved w.a then some 0
  else if operandReserved w.b then some 1
  else if operandReserved w.c then some 2
  else if operandReserved w.d then some 3
  else none

/-- TRIG drives its line, ASSERT raises its event, with a result of 1 (R63, R64). -/
def Half.driveLine (x : Half) (op : BpOp) (fn : Nat) (v : Bool) : Half :=
  match op with
  | .trig => if v then { x with ar := { x.ar with trig := sput x.ar.trig fn false true } } else x
  | .assert_ => if v then { x with ar := { x.ar with asrt := sput x.ar.asrt fn false true } } else x
  | _ => x

/-- EVAL, EVALC, TRIG and ASSERT on a readable word of a served BP (R61, R72, R73, R93, R94). -/
def Half.evaluate (x : Half) (t : Nat) (first : Bool) (pos : Nat) (op : BpOp) (w : BpWord) : Half :=
  let g := w.bp.toNat
  let val := x.operand t first pos g
  let d := val w.d
  let rsvd := firstReserved w
  if op == .evalc && !d then
    match rsvd with
    | some f => x.bpFault g pos 2 f
    | none => x
  else
    let pa := palAddr (g / 1024) (g / 64 % 16) w.fn.toNat
    let bad := x.eccAt pa == some true
    let y := if x.eccAt pa == some false then x.bpDetect (g / 1024) pa 16 else x
    let v := if bad then false
      else palBit (x.palette g w.fn.toNat) (val w.a) (val w.b) (val w.c) (if op == .evalc then false else d)
    let z := y.writeResult t g pos v
    let z := if bad then z else z.driveLine op w.fn.toNat v
    match rsvd with
    | some f => z.bpFault g pos 2 f
    | none => if bad then z.bpFault g pos 4 0 else z

/-- One step of BP `w.bp` at position `pos` (R53, R61, R83, R91 to R96). An unserved BP records its fault at the first position
that it meets whose word is not NOP (log entry 83). -/
def Half.bpStep (x : Half) (t : Nat) (first : Bool) (pos : Nat) (op : BpOp) (w : BpWord) : Half :=
  let g := w.bp.toNat
  if x.unserved g then
    if op == .nop || sget x.ar.unsrvd g false then x
    else
      let y := x.bpFault g pos 5 0
      { y with ar := { y.ar with unsrvd := sput y.ar.unsrvd g false true } }
  else
    let wa := bpWordAddr g pos
    if x.eccAt wa == some true then x.bpFault g pos 3 0
    else
      let y := if x.eccAt wa == some false then x.bpDetect (g / 1024) wa 0 else x
      match op with
      | .nop => y
      | .reserved => y.bpFault g pos 1 0
      | _ => y.evaluate t first pos op w

/-- NOP (R61): the slot keeps its value. -/
def execBpNop (x : StepAt) (bp : BitVec 16) (s : State) : Host.Outcome State Fault Refusal :=
  .next (s.upd x.half (fun y => y.bpStep x.time x.first x.pos.toNat .nop ⟨bp, 0#8, 0#13, 0#13, 0#13, 0#13⟩))

/-- EVAL (R61): slot s takes the palette function of the four operands. -/
def execEval (x : StepAt) (w : BpWord) (s : State) : Host.Outcome State Fault Refusal :=
  .next (s.upd x.half (fun y => y.bpStep x.time x.first x.pos.toNat .eval w))

/-- EVALC (R61, R73): with d = 1, slot s takes f(a, b, c, 0). -/
def execEvalc (x : StepAt) (w : BpWord) (s : State) : Host.Outcome State Fault Refusal :=
  .next (s.upd x.half (fun y => y.bpStep x.time x.first x.pos.toNat .evalc w))

/-- TRIG (R61, R63): as EVAL, and the result drives trigger line FN. -/
def execTrig (x : StepAt) (w : BpWord) (s : State) : Host.Outcome State Fault Refusal :=
  .next (s.upd x.half (fun y => y.bpStep x.time x.first x.pos.toNat .trig w))

/-- ASSERT (R61, R64): as EVAL, and a result of 1 raises assertion event FN. -/
def execBpAssert (x : StepAt) (w : BpWord) (s : State) : Host.Outcome State Fault Refusal :=
  .next (s.upd x.half (fun y => y.bpStep x.time x.first x.pos.toNat .assert_ w))

/-- Write back a pending correction: the word's check bits are good again (R91, R117). -/
def Half.writeBack (x : Half) (tile : Nat) : Half :=
  let a := sget x.ar.pendBp tile 0
  let y := if a = 0 then x else
    { x with ar := { x.ar with ecc := sput x.ar.ecc (a - 1) none none, pendBp := sput x.ar.pendBp tile 0 0 } }
  let b := sget y.ar.pendSw tile 0
  if b = 0 then y else
    { y with ar := { y.ar with ecc := sput y.ar.ecc (b - 1) none none, pendSw := sput y.ar.pendSw tile 0 0 } }

/-- A boundary writes back every pending correction of the half (R91, R117). -/
def Half.writeBackAll (x : Half) : Half := ((x.ar.pendBp ++ x.ar.pendSw).map (fun e => e.1)).foldl Half.writeBack x

/-- ECC_WRITE_BACK (R91, R117): the tile's pending corrections are written back and it holds none. -/
def execEccWriteBack (h : HalfId) (tile : BitVec 6) (s : State) : Host.Outcome State Fault Refusal :=
  .next (s.upd h (fun x => x.writeBack tile.toNat))

end Sys2Proof.Machine
end

