-- ==== Sys2Proof/Machine/DesignMem.lean ====
section
/-!
DEFINITION. Machine/DesignMem.lean: memory ports, bank and HBM accesses of a design, error correction of the
memories, the march test engine and the background tester (R216 to R250).
-/

namespace Sys2Proof.Machine

/-! ## Memory ports (R216 to R229) -/

/-- A number from `n` destination registers, lowest first, as they stand after the moves of a step. -/
def Half.dstNum (x : Half) (key : Nat) : Nat → Nat
  | 0 => 0
  | n + 1 => bitNat (sget x.ar.dst key DstReg.zero).val + 2 * x.dstNum (key + 1) n

/-- The byte address of an access of a port (R219). -/
def Half.portAddr (x : Half) (tile p : Nat) : Nat :=
  let a := x.dstNum (tile * 2048 + 0x400 + p * 128 + 0x40) 26 % 2 ^ x.rfld (Reg.tilMportCfg tile p) 13 5
  if x.portTarget tile p = 3 then hbmBase + x.rfld (Reg.tilMportBase tile p) 0 16 * 2 ^ 20 + a * x.portBytes tile p
  else bankAddr (x.portTile tile p) + a * x.portBytes tile p

/-- The write data of a port, bits [W − 1:0] (R220). -/
def Half.portData (x : Half) (tile p : Nat) : Nat :=
  x.dstNum (tile * 2048 + 0x400 + p * 128) 64 % 256 ^ x.portBytes tile p

/-- The earlier HBM writes of a port in the present cycle. -/
def Half.ownWrites (x : Half) (tile p : Nat) : List HbmWrite := x.ar.hbmWr.filter (fun w => w.tile == tile && w.port == p)

/-- What an HBM read of a port strobed now will return (R228): memory, then the earlier writes of its own port. -/
def Half.hbmSeen (x : Half) (tile p a n : Nat) : Nat :=
  leNat (rdBytes ((x.ownWrites tile p).foldl (fun m w => wrBytes m w.addr (leBytes w.bytes w.data)) x.mem) a n)

/-- An earlier write of the port covers the whole word that a read at `a` meets. -/
def Half.ownWord (x : Half) (tile p a : Nat) : Bool :=
  (x.ownWrites tile p).any (fun w => w.bytes == 8 && w.addr == a / 8 * 8)

/-- The operations that a port issues at step `t` for its strobes (R220, R221, R227, R228). -/
def Half.portIssue (x : Half) (t tile p : Nat) (rd wr : Bool) : Half :=
  let a := x.portAddr tile p
  let n := x.portBytes tile p
  let k := hops tile (x.portTile tile p)
  match x.portTarget tile p with
  | 0 => x
  | 3 =>
    let y := if rd then { x with ar := { x.ar with
      hbmRd := x.ar.hbmRd ++ [⟨tile, p, a, BitVec.ofNat 64 (x.hbmSeen tile p a n), false, x.ownWord tile p a⟩] } } else x
    if wr then { y with ar := { y.ar with hbmWr := y.ar.hbmWr ++ [⟨tile, p, a, n, x.portData tile p, false⟩] } } else y
  | _ =>
    let op (w : Option Nat) : BankOp := ⟨t + 1 + 2 * k, t + 7 + 4 * k, tile, p, a, n, w⟩
    let q := (if rd then [op none] else []) ++ (if wr then [op (some (x.portData tile p))] else [])
    { x with ar := { x.ar with bankQ := x.ar.bankQ ++ q } }

/-- One bank read (R221, R238). -/
def Half.bankRead (x : Half) (o : BankOp) : Half :=
  if x.memBad o.addr o.bytes then
    let y := (x.memUncorr (o.addr / 8 * 8)).halfFault
    { y with ar := { y.ar with bankRet := y.ar.bankRet ++ [⟨o.ret, o.tile, o.port, 0#64⟩] } }
  else
    let y := x.correct o.addr o.bytes
    { y with ar := { y.ar with
      bankRet := y.ar.bankRet ++ [⟨o.ret, o.tile, o.port, BitVec.ofNat 64 (x.rdMem o.addr o.bytes)⟩] } }

/-- One bank write; a merge into an uncorrectable word is not made (R238). -/
def Half.bankWrite (x : Half) (o : BankOp) (v : Nat) : Half :=
  if (mergedWords o.addr o.bytes).any (fun w => x.eccAt w == some true) then
    (x.memUncorr (o.addr / 8 * 8)).halfFault
  else ((x.correctWords (mergedWords o.addr o.bytes)).eccClear o.addr o.bytes).wrMem o.addr o.bytes v

/-- Put an element into a list kept in ascending order of a key, after its equals. -/
def insertKey {α : Type} (key : α → Nat) (a : α) : List α → List α
  | [] => [a]
  | b :: l => if key a < key b then a :: b :: l else b :: insertKey key a l

/-- A list in ascending order of a key, equals in their order. -/
def sortKey {α : Type} (key : α → Nat) (l : List α) : List α := l.foldl (fun m a => insertKey key a m) []

/-- The accesses whose access step is `t`: every read, then the writes in ascending tile and port (R222). -/
def Half.bankStep (x : Half) (t : Nat) : Half :=
  let ops := x.ar.bankQ.filter (fun o => decide (o.at_ ≤ t))
  let y := { x with ar := { x.ar with bankQ := x.ar.bankQ.filter (fun o => !decide (o.at_ ≤ t)) } }
  let z := (ops.filter (fun o => o.write.isNone)).foldl Half.bankRead y
  (sortKey (fun o => o.tile * 4 + o.port) (ops.filter (fun o => o.write.isSome))).foldl
    (fun w o => w.bankWrite o (o.write.getD 0)) z

/-- The read values that arrive at the end of step `t` (R221, R226). -/
def Half.bankArrive (x : Half) (t : Nat) : Half :=
  let now := x.ar.bankRet.filter (fun r => decide (r.ret ≤ t))
  { x with ar := { x.ar with
    bankRet := x.ar.bankRet.filter (fun r => !decide (r.ret ≤ t))
    rdata := now.foldl (fun m r => sput m (r.tile * 4 + r.port) 0#64 r.data) x.ar.rdata } }

/-- BANK_ACCESS (R221, R222): the accesses of the earliest access step under way. -/
def execBankAccess (h : HalfId) (s : State) : Host.Outcome State Fault Refusal :=
  .next (s.upd h (fun x =>
    match x.ar.bankQ with
    | [] => x
    | o :: q => x.bankStep (q.foldl (fun m p => min m p.at_) o.at_)))

/-- BANK_READ_RETURN (R221, R226): the read values that arrive earliest. -/
def execBankReadReturn (h : HalfId) (s : State) : Host.Outcome State Fault Refusal :=
  .next (s.upd h (fun x =>
    match x.ar.bankRet with
    | [] => x
    | r :: q => x.bankArrive (q.foldl (fun m p => min m p.ret) r.ret)))

/-- Mark the first element that satisfies `p`. -/
def markFirst {α : Type} (p : α → Bool) (f : α → α) : List α → List α
  | [] => []
  | a :: l => if p a then f a :: l else a :: markFirst p f l

/-- HBM_READ_RETURN (R227, R238, R239): the read of the port returns; an uncorrectable word delivers 0 and is a half
fault. The value enters the read-data register at B9. -/
def execHbmReadReturn (h : HalfId) (tile : BitVec 6) (port : BitVec 2) (s : State) : Host.Outcome State Fault Refusal :=
  .next (s.upd h (fun x =>
    let mine (r : HbmRead) : Bool := r.tile == tile.toNat && r.port == port.toNat && !r.back
    match x.ar.hbmRd.find? mine with
    | none => x
    | some r =>
      let n := x.portBytes r.tile r.port
      if x.memBad r.addr n && !r.own then
        let y := (x.memUncorr (r.addr / 8 * 8)).halfFault
        { y with ar := { y.ar with hbmRd := markFirst mine (fun r => { r with data := 0#64, back := true }) y.ar.hbmRd } }
      else
        let y := if r.own then x else x.correct r.addr n
        { y with ar := { y.ar with hbmRd := markFirst mine (fun r => { r with back := true }) y.ar.hbmRd } }))

/-- HBM_POSTED_WRITE (R229): the controller takes the oldest write of the port's queue. -/
def execHbmPostedWrite (h : HalfId) (tile : BitVec 6) (port : BitVec 2) (s : State) : Host.Outcome State Fault Refusal :=
  .next (s.upd h (fun x => { x with ar := { x.ar with
    hbmWr := markFirst (fun w => w.tile == tile.toNat && w.port == port.toNat && !w.taken)
      (fun w => { w with taken := true }) x.ar.hbmWr } }))

/-- The HBM stall condition of R31 and R229: a read not returned or a write not taken. -/
def Half.hbmStall (x : Half) : Bool := x.ar.hbmRd.any (fun r => !r.back) || x.ar.hbmWr.any (fun w => !w.taken)

/-- B9: the reads of the cycle enter their registers, its writes are applied in order (R227, R228, R238). -/
def Half.hbmLand (x : Half) : Half :=
  let y := x.ar.hbmWr.foldl (fun y w =>
    if (mergedWords w.addr w.bytes).any (fun a => y.eccAt a == some true) then
      (y.memUncorr (w.addr / 8 * 8)).halfFault
    else ((y.correctWords (mergedWords w.addr w.bytes)).eccClear w.addr w.bytes).wrMem w.addr w.bytes w.data) x
  { y with ar := { y.ar with
    rdata := x.ar.hbmRd.foldl (fun m r => sput m (r.tile * 4 + r.port) 0#64 r.data) y.ar.rdata
    hbmRd := [], hbmWr := [] } }

/-- HBM_PATROL (R239, R240): the patrol reads the word at an address and writes back a corrected one; at the last word
of a stack a pass is complete. -/
def execHbmPatrol (h : HalfId) (addr : BitVec 40) (s : State) : Host.Outcome State Fault Refusal :=
  .next (s.upd h (fun x =>
    let a := addr.toNat / 8 * 8
    if hbmBase ≤ a ∧ a < 0x1C00000000 then
      let y := match x.eccAt a with
        | some true => x.memUncorr a
        | some false => x.memCorr a
        | none => x
      if a = 0x1600000000 - 8 then y.countFld (Reg.hbcEccCount 0) 16 16 1
      else if a = 0x1C00000000 - 8 then y.countFld (Reg.hbcEccCount 1) 16 16 1
      else y
    else x))

/-- What a write of `MEM_ERR_STATUS` clears (R240). -/
def Half.memErrClear (x : Half) (v : Word) : Half :=
  let y := if wbit v 0 then
      ((x.setRBit Reg.memErrStatus 0 false).setRFld Reg.memErrStatus 4 4 0).setReg64 Reg.memErrAddrLo Reg.memErrAddrHi 0
    else x
  if wbit v 1 then (y.setRBit Reg.memErrStatus 1 false).setReg Reg.memEccCount 0#32 else y

/-- MEM_ERR_STATUS_WRITE (R240). -/
def execMemErrStatusWrite (h : HalfId) (m : Master) (v : Word) (s : State) : Host.Outcome State Fault Refusal :=
  .next (s.byMaster h m (fun s => s.upd h (fun x => x.memErrClear v)))

/-! ## March test engine (R241 to R246) -/

/-- The half is not loaded: the sequencer refuses a run start (R110, R186). -/
def Half.unload (x : Half) : Half := { x with run := { x.run with
  state := .unloaded, loaded := none, prev := x.run.loaded.or x.run.prev } }

/-- A march test begins with the selection of `c` (R242, R246). -/
def Half.marchBegin (x : Half) (c : Word) : Half :=
  let y := (x.setRBit Reg.memMarchStatus 0 true).setRBit Reg.memMarchStatus 2 false
  { y with mt := { y.mt with ctrl := c, ending := false } }

/-- The march test of diagnosis (R242, R366): every store, preserving, without repair. -/
def Half.marchDiagnose (x : Half) : Half := x.marchBegin 0xF4#32

/-- A write of `MEM_MARCH_CTRL` without START or ABORT effect: the selection is stored. A write with START begins a test
(R242, R246) while no run is in progress, no test is and a store is selected. -/
def Half.marchStart (x : Half) (v : Word) : Half :=
  let y := x.setRFld Reg.memMarchCtrl 2 6 (fld v 2 6)
  if wbit v 0 && !x.marchBusy && decide (fld v 4 4 ≠ 0) && !x.inRun then y.marchBegin v else y

/-- Is a tile selected by the tile mask? -/
def Half.marchTile (x : Half) (n : Nat) : Bool :=
  if n < 32 then x.rbit Reg.memMarchTilesLo n else x.rbit Reg.memMarchTilesHi (n - 32)

/-- A byte of a store that the test selects (R242, R246). -/
def Half.marchCovers (x : Half) (c : Word) (a : Nat) : Bool :=
  (wbit c 4 && decide (a < 0x80000000) && x.marchTile (a / 0x8000 / 1024)) ||
  (wbit c 5 && decide (0x80000000 ≤ a) && decide (a < 0x88000000) && x.marchTile ((a - 0x80000000) / 0x800 / 1024)) ||
  (wbit c 7 && decide (0x8E000000 ≤ a) && decide (a < 0x8E080000) && x.marchTile ((a - 0x8E000000) / 0x2000)) ||
  (wbit c 6 && decide (attrBase 0 ≤ a) && decide (a < attrBase 64) && x.marchTile ((a - attrBase 0) / 0x200000)) ||
  (wbit c 4 && decide (swBase 0 ≤ a) && decide (a < swBase 64) && x.marchTile ((a - swBase 0) / 0x200000))

/-- MEM interrupt (R246, R249); no register routes it to a vector. -/
def Half.memIrq (x : Half) : Half := x.emit .memIrq

/-- The logical BPs of a cluster whose physical BP has failed, ascending. -/
def failedLogical (failed : List Nat) : List Nat := (List.range 64).filter (fun b => failed.contains b)

/-- The repair map of one cluster from its failed physical BPs, 64 and 65 the spares (R89, R90, R244): the surviving
spares serve the failed logical BPs in ascending order, spare 0 first; those left over are unserved. -/
def Half.setRepair (x : Half) (n c : Nat) (failed : List Nat) : Half :=
  let lost := failedLogical failed
  let spares := (if failed.contains 64 then [] else [0]) ++ (if failed.contains 65 then [] else [1])
  let serve := spares.zip lost
  let left := lost.drop spares.length
  let sp (k lo : Nat) : Nat := match serve.find? (fun p => p.1 == k) with
    | some p => (128 + p.2) * 2 ^ lo
    | none => 0
  let y := x.setReg (Reg.bpaRepair n c)
    (BitVec.ofNat 32 (sp 1 24 + sp 0 16 + ((List.range 66).filter (fun b => failed.contains b)).length))
  let m := left.foldl (fun a b => a + 2 ^ b) 0
  let z := (y.setReg (Reg.bpaUnservedLo n c) (BitVec.ofNat 32 m)).setReg (Reg.bpaUnservedHi n c)
    (BitVec.ofNat 32 (m / 2 ^ 32))
  z.setRBit (Reg.bpaStatus n) 3 ((List.range 16).any (fun i =>
    z.reg (Reg.bpaUnservedLo n i) != 0#32 || z.reg (Reg.bpaUnservedHi n i) != 0#32))

/-- Forget `n` bytes' known content at `a`: each byte takes a free value (R243). -/
def Half.scramble (x : Half) (a : Nat) : Nat → Half
  | 0 => x
  | n + 1 =>
    let (v, y) := x.fresh 8
    ({ y with mem := wrByte y.mem a v }).scramble (a + 1) n

/-- The contents of a stretch of the stores are undefined: free values under good check bits. -/
def Half.lose (x : Half) (a n : Nat) : Half :=
  let y := x.scramble a n
  { y with ar := { y.ar with ecc := keepKeys (fun w => !(decide (a ≤ w) && decide (w < a + n))) y.ar.ecc } }

/-- No spare row and no spare column remains for a failed cell: its physical BP is failed (R244). -/
def failsBp (f : MarchFault) : Bool := !f.row && !f.column

/-- The failed physical BPs of a cluster with those that a test adds. -/
def failedWith (old : Nat) (found : List MarchFault) (k : Nat) : Nat :=
  (found.filter (fun f => failsBp f && f.cluster.toNat == k)).foldl (fun m f => m ||| 2 ^ f.bp.toNat) old

/-- The physical BPs of a mask. -/
def maskBps (m : Nat) : List Nat := (List.range 66).filter (fun b => natBit m b)

/-- Apply the repairs of a test: the repair map of every cluster in which BPs fail (R244); cells that a spare row or
column mends are told by the findings (log entry 94). -/
def Half.applyRepairs (x : Half) (found : List MarchFault) : Half :=
  (List.range 1024).foldl (fun y k =>
    let old := sget y.mt.failed k 0
    let new := failedWith old found k
    if new = old then y
    else
      let z := y.setRepair (k / 16) (k % 16) (maskBps new)
      { z with mt := { z.mt with failed := sput z.mt.failed k 0 new } }) x

/-- The physical BP that serves logical BP `b` of cluster `k`: itself, a spare, or none (R81, R83, R244). -/
def Half.server (x : Half) (k b : Nat) : Option Nat :=
  let r := Reg.bpaRepair (k / 16) (k % 16)
  if !natBit (sget x.mt.failed k 0) b then some b
  else if x.rbit r 23 && x.rfld r 16 6 == b then some 64
  else if x.rbit r 31 && x.rfld r 24 6 == b then some 65
  else none

/-- The logical BPs, as numbers of the half, that a test has moved to another physical BP. -/
def movedBps (x y : Half) : List Nat :=
  ((List.range 1024).filter (fun k => sget x.mt.failed k 0 != sget y.mt.failed k 0)).flatMap (fun k =>
    ((List.range 64).filter (fun b => x.server k b != y.server k b)).map (fun b => k * 64 + b))

/-- Some logical BP of the half is unserved. -/
def Half.anyUnserved (x : Half) : Bool := (List.range 64).any (fun n => x.rbit (Reg.bpaStatus n) 3)

/-- The sum of FAILED over the clusters. -/
def Half.failedCount (x : Half) : Nat :=
  (List.range 1024).foldl (fun a k => a + x.rfld (Reg.bpaRepair (k / 16) (k % 16)) 0 7) 0

/-- A test reports its end (R246). -/
def Half.marchReport (x : Half) (result new : Nat) : Half :=
  let y := (x.setRFld Reg.memMarchStatus 8 4 result).setRFld Reg.memMarchStatus 12 8 (min 255 new)
  let y := (y.setRBit Reg.memMarchStatus 0 false).setRBit Reg.memMarchStatus 1 true
  ({ y with mt := { y.mt with ending := false } } : Half).memIrq

/-- The end of a march test (R243 to R246) that has found failed cells: complete, or by an abort. -/
def Half.marchEnd (x : Half) (found : List MarchFault) (aborted : Bool) : Half :=
  let c := x.mt.ctrl
  let repair := wbit c 3
  let y := if repair then x.applyRepairs found else x
  let moved := movedBps x y
  let rows := found.filter (fun f => !failsBp f)
  let changed := repair && !found.isEmpty
  let z := if !wbit c 2 then
      let z := (y.clearMem (y.marchCovers c)).unload
      { z with ar := { z.ar with ecc := keepKeys (fun a => !z.marchCovers c a) z.ar.ecc } }
    else if changed then
      let z := rows.foldl (fun w f => w.lose f.addr.toNat f.len) y
      let z := moved.foldl (fun w g => (w.lose (bpWordAddr g 0) 0x8000).lose (slotAddr g 0) 0x200) z
      (z.unload).setRBit Reg.memMarchStatus 2 true
    else y
  let result := if aborted then 5
    else if !repair then (if found.isEmpty then 1 else 4)
    else if y.anyUnserved then 3
    else if changed then 2
    else 1
  z.marchReport result (y.failedCount - x.failedCount)

/-- MARCH_START (R242, R246). -/
def execMarchStart (h : HalfId) (m : Master) (v : Word) (s : State) : Host.Outcome State Fault Refusal :=
  .next (s.byMaster h m (fun s => s.upd h (fun x => x.marchStart (v ||| 1#32))))

/-- MARCH_ABORT (R245): a test in progress ends ABORTED, the repairs found so far applied with REPAIR = 1. -/
def execMarchAbort (h : HalfId) (m : Master) (found : List MarchFault) (s : State) : Host.Outcome State Fault Refusal :=
  .next (s.byMaster h m (fun s => s.upd h (fun x => if x.marchBusy then x.marchEnd found true else x)))

/-- MARCH_DONE (R241 to R246): the test ends, by an ABORT written before, or complete. -/
def execMarchDone (h : HalfId) (found : List MarchFault) (s : State) : Host.Outcome State Fault Refusal :=
  .next (s.upd h (fun x => if x.marchBusy then x.marchEnd found x.mt.ending else x))

/-! ## Background tester (R247 to R250) -/

/-- A write of `MEM_BGT_CTRL` (R248, R250): setting ENABLE begins a pass that records signatures; clearing it stops the
tester. -/
def Half.bgtEnable (x : Half) (v : Word) : Half :=
  let was := x.rbit Reg.memBgtCtrl 0
  let y := (x.setRFld Reg.memBgtCtrl 8 8 (fld v 8 8)).setRBit Reg.memBgtCtrl 0 (wbit v 0)
  if wbit v 0 && !was then
    let z := (y.setRFld Reg.memBgtStatus 16 16 0).setRBit Reg.memBgtStatus 0 true
    { z with mt := { z.mt with region := 0, sig := [] } }
  else if !wbit v 0 then y.setRBit Reg.memBgtStatus 0 false
  else y

/-- BGT_ENABLE (R250). -/
def execBgtEnable (h : HalfId) (m : Master) (v : Word) (s : State) : Host.Outcome State Fault Refusal :=
  .next (s.byMaster h m (fun s => s.upd h (fun x => x.bgtEnable v)))

/-- A mismatch in this granule during a run is a half fault (R249). -/
def Half.granuleCritical (x : Half) (g : Nat) : Bool :=
  x.inRun && (if g < 16384 then x.bankOwned (g / 256)
    else let k := (g - 16384) / 256; k != 5 && k != 6)

/-- A failure is recorded (R249, R250): the address of the first while no flag stands, the bit of the first march
failure. -/
def Half.bgtRecord (x : Half) (a : Nat) (bit : Option Nat) : Half :=
  let y := if x.rbit Reg.memBgtStatus 1 || x.rbit Reg.memBgtStatus 2 then x
    else
      let y := x.setReg64 Reg.memBgtFailLo Reg.memBgtFailHi a
      { y with mt := { y.mt with bySig := bit.isNone } }
  match bit with
  | some b => (if x.rbit Reg.memBgtStatus 1 then y else y.setRFld Reg.memBgtStatus 8 8 b).setRBit Reg.memBgtStatus 1 true
  | none => y.setRBit Reg.memBgtStatus 2 true

/-- A write of `MEM_BGT_STATUS` (R250): clearing MARCH_FAIL clears FAIL_BIT, and clearing the flag that set the address
clears the address. -/
def Half.bgtClear (x : Half) (v : Word) : Half :=
  let y := if wbit v 1 then (x.setRBit Reg.memBgtStatus 1 false).setRFld Reg.memBgtStatus 8 8 0 else x
  let y := if wbit v 2 then y.setRBit Reg.memBgtStatus 2 false else y
  if wbit v (if x.mt.bySig then 2 else 1) then y.setReg64 Reg.memBgtFailLo Reg.memBgtFailHi 0 else y

/-- The end of a granule (R248, R249): compare with the signature held, unless the granule was written. -/
def Half.bgtGranule (x : Half) (g : Nat) : Half :=
  let a := 0x88000000 + g * 4096
  let c := crc32c (rdBytes x.mem a 4096)
  let y := match sget x.mt.sig g none, sget x.mt.wrote g false with
    | some c0, false =>
      if c0 = c then x
      else
        let y := (x.bgtRecord a none).memIrq
        if y.granuleCritical g then y.halfFault else y
    | _, _ => x
  { y with mt := { y.mt with sig := sput y.mt.sig g none (some c), wrote := sput y.mt.wrote g false false } }

/-- BGT_REGION (R247 to R250): the tester finishes its next region of 256 bytes; `failBit` is the word address and bit
at which its march failed. -/
def execBgtRegion (h : HalfId) (failBit : Option (BitVec 40 × BitVec 8)) (s : State) : Host.Outcome State Fault Refusal :=
  .next (s.upd h (fun x =>
    if x.rbit Reg.memBgtStatus 0 then
      let y := match failBit with
        | some (a, b) => (x.bgtRecord a.toNat (some b.toNat)).memIrq
        | none => x
      let r := y.mt.region
      let z := if r % 16 = 15 then y.bgtGranule (r / 16) else y
      if r + 1 < 294912 then { z with mt := { z.mt with region := r + 1 } }
      else { z.countFld Reg.memBgtStatus 16 16 1 with mt := { z.mt with region := 0 } }
    else x))

end Sys2Proof.Machine
end

