-- ==== Sys2Proof/Machine/Switch.lean ====
section
/-!
DEFINITION. Machine/Switch.lean: one step of a tile switch, and the half bridge (R114 to R137).
-/

namespace Sys2Proof.Machine

/-- Record an exchange fault (R129, R131 to R134): the first since FAULT was cleared sets cause, location and cycle. It
reaches the sequencer as event 257 at the next B8. -/
def Half.xchFault (x : Half) (tile move pos cause : Nat) : Half :=
  let y := x.countFld Reg.xchFaultStatus 16 16 1
  let z := if y.rbit Reg.xchFaultStatus 0 then y
    else
      (((y.setRBit Reg.xchFaultStatus 0 true).setRFld Reg.xchFaultStatus 4 4 cause).setReg Reg.xchFaultLoc
        (BitVec.ofNat 32 (tile * 2 ^ 26 + move * 2 ^ 19 + pos))).setReg64 Reg.xchFaultCycLo Reg.xchFaultCycHi
          x.run.cyc.toNat
  let w := { z with ar := { z.ar with xchFault := true } }
  if cause = 3 ∨ (cause = 6 ∧ w.run.mode = .joined) then w.recoverable else w

/-- A detection of a corrected move of tile `n` at `a` (R117): counted in MOVE_CORR, pending if none is. -/
def Half.moveDetect (x : Half) (n a : Nat) : Half :=
  let y := x.countFld Reg.xchEccCount 0 16 1
  if sget y.ar.pendSw n 0 = 0 then { y with ar := { y.ar with pendSw := sput y.ar.pendSw n 0 (a + 1) } } else y

/-- The moves of the stored instruction of a tile at a position, with their numbers and their check bits: those that
are not all zero or that carry an error. -/
def Half.moves (x : Half) (tile pos : Nat) : List (Nat × Move × Option Bool) :=
  (List.range 128).filterMap (fun m =>
    let a := moveAddr tile pos m
    let w := x.rdMem a 3
    if w = 0 ∧ x.eccAt a = none then none else some (m, decodeMove w, x.eccAt a))

/-- Write a destination register at the end of step `t` (R122). -/
def Half.setDst (x : Half) (t key : Nat) (v : Bool) : Half :=
  let r := sget x.ar.dst key DstReg.zero
  { x with ar := { x.ar with dst := sput x.ar.dst key DstReg.zero ⟨v, r.val, t⟩ } }

/-- Why a move is not performed or reads 0: its lowest cause (R129, R132); 0 for none. `win` says that no
higher-numbered move of the instruction names its DST. -/
def moveCause (mode : Mode) (tile : Nat) (mv : Move) (win : Bool) : Nat :=
  if srcReserved tile mv.src then 1
  else if dstReserved tile mv.dst then 2
  else if !win then 4
  else if isBrout mv.dst && mode != .joined then 5
  else 0

/-- Is a move performed (R132)? -/
def movePerformed (mode : Mode) (tile : Nat) (mv : Move) (win : Bool) : Bool :=
  !dstReserved tile mv.dst && win && !(isBrout mv.dst && mode != .joined)

/-- The write of a performed move: a strobe holds no value (R220), a BROUT value also leaves for the other half and is
readable there six steps on (R123, R131). -/
def Half.moveWrite (x : Half) (t pos last tile dst : Nat) (v : Bool) : Half :=
  if 0x400 ≤ dst ∧ dst < 0x600 ∧ 0x5A ≤ dst % 128 then x
  else
    let y := x.setDst t (tile * 2048 + dst) v
    if isBrout dst then
      { y with ar := { y.ar with sent := y.ar.sent ++ [⟨t + 6, if pos + 6 ≤ last then pos + 6 else 0xFFF, tile, dst - 0x680, v⟩] } }
    else y

/-- One step of the switch of a tile (R114 to R122, R129, R132): every source is read before any write. -/
def Half.switchStep (x : Half) (t : Nat) (first : Bool) (pos last tile : Nat) : Half :=
  let ms := x.moves tile pos
  let live := ms.filter (fun m => m.2.1.v && m.2.2 != some true)
  let wins (m : Nat) (d : Nat) : Bool := live.all (fun n => !(n.2.1.dst == d && decide (m < n.1)))
  let mode := x.run.mode
  let val (mv : Move) : Bool :=
    (if srcReserved tile mv.src then false else x.source t first pos tile mv.src) != mv.inv
  let strobe (d : Nat) : Bool := live.any (fun n => n.2.1.dst == d && movePerformed mode tile n.2.1 (wins n.1 d) && val n.2.1)
  let y := ms.foldl (fun y m =>
    let a := moveAddr tile pos m.1
    if m.2.2 == some true then y.xchFault tile m.1 pos 3
    else
      let y := if m.2.2 == some false then y.moveDetect tile a else y
      if m.2.1.v then
        let w := wins m.1 m.2.1.dst
        let y := if movePerformed mode tile m.2.1 w then y.moveWrite t pos last tile m.2.1.dst (val m.2.1) else y
        let c := moveCause mode tile m.2.1 w
        if c = 0 then y else y.xchFault tile m.1 pos c
      else y) x
  (List.range 4).foldl (fun y p =>
    y.portIssue t tile p (strobe (0x400 + p * 128 + 0x5A)) (strobe (0x400 + p * 128 + 0x5B))) y

/-- The bridge words that have left one half reach the other half's queue (R123). -/
def State.crossBridge (s : State) : State :=
  let a := s.h0.ar.sent
  let b := s.h1.ar.sent
  { s with
    h0 := { s.h0 with ar := { s.h0.ar with sent := [], bridge := s.h0.ar.bridge ++ b } }
    h1 := { s.h1 with ar := { s.h1.ar with sent := [], bridge := s.h1.ar.bridge ++ a } } }

/-- SWITCH_INSTRUCTION (R114 to R132): the switch of a tile performs the stored instruction of the position. -/
def execSwitchInstruction (x : StepAt) (tile : BitVec 6) (s : State) : Host.Outcome State Fault Refusal :=
  .next (s.upd x.half (fun y => y.switchStep x.time x.first x.pos.toNat x.last.toNat tile.toNat)).crossBridge

/-- The bridge words due by step `t` enter their BRIN registers. -/
def Half.bridgeLand (x : Half) (t : Nat) : Half :=
  let now := x.ar.bridge.filter (fun w => decide (w.due ≤ t))
  { x with ar := { x.ar with
    bridge := x.ar.bridge.filter (fun w => !decide (w.due ≤ t))
    brin := now.foldl (fun m w => sput m (w.tile * 16 + w.k) false w.val) x.ar.brin } }

/-- BRIDGE_RECEIVE (R123, R131, R136): the bridge word of a tile arrives. A single-bit error is corrected and counted;
with an uncorrectable one the tile's 16 BRIN registers take 0 and the fault is recorded with the position at which the word
would first have been readable. -/
def execBridgeReceive (h : HalfId) (tile : BitVec 6) (e : Ecc) (s : State) : Host.Outcome State Fault Refusal :=
  .next (s.upd h (fun x =>
    let n := tile.toNat
    match x.ar.bridge.find? (fun w => w.tile == n) with
    | none => match e with
      | .good => x
      | .single => x.countFld Reg.xchEccCount 16 16 1
      | .double =>
        ({ x with ar := { x.ar with
          brin := (List.range 16).foldl (fun m k => sput m (n * 16 + k) false false) x.ar.brin } }).xchFault n 0 0xFFF 6
    | some w0 =>
      let mine (w : BridgeWord) : Bool := w.tile == n && w.due == w0.due
      let rest := x.ar.bridge.filter (fun w => !mine w)
      match e with
      | .double =>
        ({ x with ar := { x.ar with
          bridge := rest
          brin := (List.range 16).foldl (fun m k => sput m (n * 16 + k) false false) x.ar.brin } }).xchFault n 0 w0.pos 6
      | e =>
        let y := { x with ar := { x.ar with
          bridge := rest
          brin := (x.ar.bridge.filter mine).foldl (fun m w => sput m (w.tile * 16 + w.k) false w.val) x.ar.brin } }
        if e = .single then y.countFld Reg.xchEccCount 16 16 1 else y))

/-- The half's root PLL runs from a reference source or in holdover from one (R553, R574). -/
def Half.hasRef (x : Half) : Bool := x.rbit Reg.clkStatus 10 || x.rbit Reg.clkStatus 11

/-- REF_SAME of `XCH_BRG_STATUS` (R137): both halves select the same reference source. -/
def State.refSame (s : State) : Bool :=
  s.h0.hasRef && s.h1.hasRef && s.h0.rfld Reg.clkStatus 8 2 == s.h1.rfld Reg.clkStatus 8 2

/-- What a write of `BPA_STATUS` clears (R85). -/
def Half.bpaClear (x : Half) (n : Nat) (v : Word) : Half :=
  let y := if wbit v 0 then
      ((((x.setRBit (Reg.bpaStatus n) 0 false).setRFld (Reg.bpaStatus n) 16 16 0).setRFld (Reg.bpaStatus n) 4 4 0).setReg
        (Reg.bpaFaultLoc n) 0#32).setReg64 (Reg.bpaFaultCycLo n) (Reg.bpaFaultCycHi n) 0
    else x
  if wbit v 2 then (y.setRBit (Reg.bpaStatus n) 2 false).setReg (Reg.bpaEccCount n) 0#32 else y

/-- BPA_STATUS_WRITE (R85 to R88). -/
def execBpaStatusWrite (h : HalfId) (m : Master) (tile : BitVec 6) (v : Word) (s : State) :
    Host.Outcome State Fault Refusal :=
  .next (s.byMaster h m (fun s => s.upd h (fun x => x.bpaClear tile.toNat v)))

/-- What a write of `XCH_FAULT_STATUS` clears (R133, R134). -/
def Half.xchClear (x : Half) (v : Word) : Half :=
  if wbit v 0 then
    ((((x.setReg Reg.xchFaultStatus 0#32).setReg Reg.xchFaultLoc 0#32).setReg64 Reg.xchFaultCycLo Reg.xchFaultCycHi 0)
      ).setRFld Reg.xchEccCount 0 16 0
  else x

/-- XCH_FAULT_STATUS_WRITE (R133, R134). -/
def execXchFaultStatusWrite (h : HalfId) (m : Master) (v : Word) (s : State) : Host.Outcome State Fault Refusal :=
  .next (s.byMaster h m (fun s => s.upd h (fun x => x.xchClear v)))

/-- What a write of `XCH_BRG_STATUS` clears (R134, R137). -/
def Half.brgClear (x : Half) (v : Word) : Half :=
  if wbit v 1 then (x.setRBit Reg.xchBrgStatus 1 false).setRFld Reg.xchEccCount 16 16 0 else x

/-- XCH_BRG_STATUS_WRITE (R134, R137). -/
def execXchBrgStatusWrite (h : HalfId) (m : Master) (v : Word) (s : State) : Host.Outcome State Fault Refusal :=
  .next (s.byMaster h m (fun s => s.upd h (fun x => x.brgClear v)))

end Sys2Proof.Machine
end

