-- ==== Sys2Proof/Machine/Wire.lean ====
section
/-!
DEFINITION. Machine/Wire.lean: what the lanes of a Tilmoyr bundle carry: blocks, slices, the scrambler, training records and
packet bytes (R141 to R145, R151).
-/

namespace Sys2Proof.Machine

/-! ## The scrambler (R142) -/

/-- The bit that the polynomial x^58 + x^39 + 1 takes from the last 58 bits of a lane; bit `k` of `s` is the bit `k + 1` bits
ago. -/
def scrTap (s : Nat) : Bool := natBit s 38 != natBit s 57

/-- The last 58 bits after one more. -/
def scrPush (s : Nat) (b : Bool) : Nat := (2 * s + bitNat b) % 2 ^ 58

/-- The lowest `n` bits of `v` go through the scrambler of a lane, lowest bit first: what is sent, and the lane's last 58
bits after it. -/
def scramble : Nat → Nat → Nat → Nat × Nat
  | 0, s, _ => (0, s)
  | n + 1, s, v =>
    let o := natBit v 0 != scrTap s
    let r := scramble n (scrPush s o) (v / 2)
    (bitNat o + 2 * r.1, r.2)

/-- The receiver's inverse: it is driven by the bits received. -/
def descramble : Nat → Nat → Nat → Nat × Nat
  | 0, s, _ => (0, s)
  | n + 1, s, v =>
    let i := natBit v 0
    let r := descramble n (scrPush s i) (v / 2)
    (bitNat (i != scrTap s) + 2 * r.1, r.2)

/-! ## Blocks (R141 to R143) -/

/-- A block as the receiver's logic sees it: CTL, body, and whether a header was invalid or the CRC failed. -/
structure Block where
  ctl  : BitVec 16
  body : BitVec 512
  bad  : Bool
  deriving DecidableEq, Repr

/-- KIND, PSTART and SEQ of CTL (R143). -/
def Block.kind (k : Block) : Nat := natField k.ctl.toNat 12 4
def Block.pstart (k : Block) : Bool := natBit k.ctl.toNat 8
def Block.seq (k : Block) : Nat := natField k.ctl.toNat 0 8

/-- STALL, THROT and HALT of CTL (R143). -/
def Block.flags (k : Block) : LinkFlags := ⟨natBit k.ctl.toNat 11, natBit k.ctl.toNat 10, natBit k.ctl.toNat 9⟩

/-- CTL from its fields (R143). -/
def ctlOf (kind : Nat) (f : LinkFlags) (pstart : Bool) (seq : Nat) : Nat :=
  seq % 256 + bitNat pstart * 2 ^ 8 + bitNat f.halt * 2 ^ 9 + bitNat f.throt * 2 ^ 10 + bitNat f.stall * 2 ^ 11 +
  kind % 16 * 2 ^ 12

/-- The CRC of the block bits [527:0] (R141). -/
def blockCrc (v : Nat) : Word := crc32c (leBytes 66 (v % 2 ^ 528))

/-- The 560 bits of a block (R141). -/
def blockBits (ctl body : Nat) : Nat :=
  let v := ctl % 2 ^ 16 + body % 2 ^ 512 * 2 ^ 16
  v + (blockCrc v).toNat * 2 ^ 528

/-- The block that 560 bits spell (R141); `hdrs` says that every header is 01. -/
def blockOf (hdrs : Bool) (v : Nat) : Block :=
  { ctl := BitVec.ofNat 16 v, body := BitVec.ofNat 512 (v / 2 ^ 16)
    bad := !hdrs || (blockCrc v).toNat != natField v 528 32 }

/-- Slice payloads from the bits of a block: slice j holds the bits [70j + 69 : 70j] (R142). -/
def slicesOf (v : Nat) : List Nat := (List.range 8).map (fun j => natField v (70 * j) 70)

/-- The number that fields of `n` bits spell, the first lowest. -/
def joinFields (n : Nat) : List Nat → Nat
  | [] => 0
  | p :: ps => p % 2 ^ n + 2 ^ n * joinFields n ps

/-! ## Training records (R151) -/

/-- The slice payloads of a TRAIN block: each a tag, with the slice's index and the block counter, and a 54-bit chunk of the
record. -/
def trainSlices (count rec : Nat) : List Nat :=
  (List.range 8).map (fun j => j + count % 2 ^ 13 * 8 + natField rec (54 * j) 54 * 2 ^ 16)

/-- The tags of the slices are those of one block, in order. -/
def tagsOk (ps : List Nat) : Bool :=
  (ps.zipIdx).all (fun p => p.1 % 8 == p.2 && natField p.1 3 13 == natField (ps.headD 0) 3 13)

/-- The record that the chunks of the slices spell. -/
def trainRec (ps : List Nat) : BitVec 432 := BitVec.ofNat 432 (joinFields 54 (ps.map (fun p => natField p 16 54)))

/-- A field of the 432-bit training record. -/
def recField (r : BitVec 432) (lo n : Nat) : Nat := natField r.toNat lo n

/-- The CRC of a training record over its bits [399:0]. -/
def recCrcOk (r : BitVec 432) : Bool := (crc32c (leBytes 50 (recField r 0 400))).toNat == recField r 400 32

/-- A count modulo 2^48. -/
def mod48 (n : Nat) : Nat := n % 2 ^ 48

/-! ## Slices on lanes (R138, R142, R162) -/

/-- LANES8 of a configuration; ignored for odd b (R165). -/
def lanes8 (b : Nat) (cfg : Word) : Bool := wbit cfg 12 && b % 2 == 0

/-- The bundle carries one block every 8 steps (R141, R162). -/
def Bundle.wide (u : Bundle) (b : Nat) : Bool := lanes8 b u.cfg && !u.degraded

/-- The lane of the bundle that carries slice j: lane j of eight; of four, lane j carries slice j and then slice j + 4. A
degraded bundle uses the four of its lanes that have no fault. -/
def Bundle.laneOf (u : Bundle) (b j : Nat) : Nat :=
  if u.wide b then j else j % 4 + (if u.degraded && u.laneFlt &&& 0x0F#8 != 0#8 then 4 else 0)

/-- Slice payloads go out with a header, through the scramblers of their lanes: lanes and what they carry. -/
def Bundle.putSlices (u : Bundle) (b : Nat) : List (Nat × Nat) → List (BitVec 3 × BitVec 70) × Bundle
  | [] => ([], u)
  | (j, p) :: ps =>
    let l := u.laneOf b j
    let r := scramble 70 (sget u.scrTx l 0) p
    let q := ({ u with scrTx := sput u.scrTx l 0 r.2 } : Bundle).putSlices b ps
    ((BitVec.ofNat 3 l, BitVec.ofNat 70 r.1) :: q.1, q.2)

/-- Slices come in: their payloads descrambled, and per lane the last 58 bits and the invalid headers in a row (R161). -/
def Bundle.takeSlices (u : Bundle) (b : Nat) : List (Nat × BitVec 2 × BitVec 70) → List Nat × Bundle
  | [] => ([], u)
  | (j, h, p) :: ps =>
    let l := u.laneOf b j
    let r := descramble 70 (sget u.scrRx l 0) p.toNat
    let bad := h = 0#2 ∨ h = 3#2
    let v : Bundle := { u with
      scrRx := sput u.scrRx l 0 r.2, hdrBad := sput u.hdrBad l 0 (if bad then sget u.hdrBad l 0 + 1 else 0) }
    let q := v.takeSlices b ps
    (r.1 :: q.1, q.2)

/-- The slices of a received block, numbered. -/
def wireSlices (w : WireBlock) : List (Nat × BitVec 2 × BitVec 70) := (w.slices.zipIdx).map (fun p => (p.2, p.1.1, p.1.2))

/-- Every slice of a received block has the header `h`, and there are eight. -/
def wireHeaded (w : WireBlock) (h : BitVec 2) : Bool := w.slices.length == 8 && w.slices.all (fun p => p.1 == h)

/-- The block that a bundle reads from its lanes. -/
def Bundle.read (u : Bundle) (b : Nat) (w : WireBlock) : Block :=
  blockOf (wireHeaded w 1#2) (joinFields 70 (u.takeSlices b (wireSlices w)).1)

/-- A TRAIN block that a bundle reads from its lanes: good, and its record. -/
def Bundle.readTrain (u : Bundle) (b : Nat) (w : WireBlock) : Bool × BitVec 432 :=
  let ps := (u.takeSlices b (wireSlices w)).1
  (wireHeaded w 2#2 && tagsOk ps && recCrcOk (trainRec ps), trainRec ps)

/-- A block on the lanes of a bundle. -/
def Half.sendSlices (x : Half) (b : Nat) (hdr : BitVec 2) (ps : List Nat) : Half :=
  let u := sget x.bundle b Bundle.zero
  let r := u.putSlices b ((ps.zipIdx).map (fun p => (p.2, p.1)))
  { x with bundle := sput x.bundle b Bundle.zero r.2 }.emit (.block (BitVec.ofNat 4 b) hdr r.1)

/-! ## Packet bytes (R145) -/

/-- The bytes of a packet: TYPE, CHAN, LEN, PSEQ, ACKSEQ, payload. -/
def LinkTx.bytes (p : LinkTx) (ack : Nat) : Bytes :=
  [BitVec.ofNat 8 p.typ, BitVec.ofNat 8 p.chan] ++ leBytes 2 p.payload.length ++ leBytes 2 p.pseq ++ leBytes 2 ack ++ p.payload

/-- Packets join the bytes on their way until `n` of them are there. -/
def gatherBytes (n ack : Nat) : Bytes → List LinkTx → Bytes × List LinkTx
  | bs, [] => (bs, [])
  | bs, p :: ps => if n ≤ bs.length then (bs, p :: ps) else gatherBytes n ack (bs ++ p.bytes ack) ps

/-- The packet area of a block, `n` bytes (R145): whether it begins at a packet boundary, its bytes, filled up with 0x00, and
the bundle after it. -/
def Bundle.area (u : Bundle) (n : Nat) : Bool × Bytes × Bundle :=
  let g := gatherBytes n u.pseqRx u.txPart u.txq
  (u.txPart.isEmpty && decide (0 < n), g.1.take n ++ zeros (n - g.1.length), { u with txPart := g.1.drop n, txq := g.2 })

end Sys2Proof.Machine
end

