-- ==== Sys2Proof/Machine/Link.lean ====
section
/-!
DEFINITION. Machine/Link.lean: the Tilmoyr link: bundles, blocks, packets and credit (R138 to R165, R275 to R277).
-/

namespace Sys2Proof.Machine

/-! ## Bundles -/

/-- One bundle of a half. -/
def Half.bun (x : Half) (b : Nat) : Bundle := sget x.bundle b Bundle.zero

/-- Replace a bundle. -/
def Half.setBun (x : Half) (b : Nat) (u : Bundle) : Half := { x with bundle := sput x.bundle b Bundle.zero u }

/-- The block span S (R153). -/
def Bundle.span (u : Bundle) (b : Nat) : Nat := if u.wide b then 8 else 16

/-- The first group bit that a bundle carries (R139). -/
def Bundle.lo (_u : Bundle) (b : Nat) : Nat := if b % 2 = 1 then 32 else 0

/-- E as a bundle's configuration gives it (R140, R165); a value that R140 does not allow is taken as written (log entry 86). -/
def Bundle.e (u : Bundle) : Nat := fld u.cfg 15 7

/-- The bundle carries packets. -/
def Bundle.live (u : Bundle) : Bool := u.st == .active || u.st == .packet

/-- The code of a bundle state (R149). -/
def BundleState.code : BundleState → Nat
  | .off => 0 | .lock => 1 | .align => 2 | .param => 3 | .measure => 4 | .active => 5 | .packet => 6 | .down => 7
  | .failed => 8

/-- REF_LOCK (R150): the step clock runs from `EXT_REF` and that reference is locked. -/
def Half.refLock (x : Half) : Bool := x.rbit Reg.clkStatus 10 && x.rfld Reg.clkStatus 8 2 == 2

/-- A bundle event: its flag, event 278 and the bundle interrupt (R165, R198, R472). -/
def Half.bundleEvt (x : Half) (b bit : Nat) : Half :=
  let y := (x.setRBit (Reg.lnkTmBevt b) bit true).event 278
  if y.rbit Reg.lnkIrq 30 && !x.rbit (Reg.lnkTmBevt b) bit then y.msix (y.rfld Reg.lnkIrq 8 8) else y

/-- The lanes of a bundle: eight from 4b for a wide one, else four (R138). -/
def bundleLanes (b : Nat) (wide : Bool) : List Nat := (List.range (if wide then 8 else 4)).map (fun i => 4 * b + i)

/-- PLL B of each quad of the bundle is locked at code 9 (R460). -/
def Half.bundlePll (x : Half) (b : Nat) (u : Bundle) : Bool :=
  (if lanes8 b u.cfg then [b, b + 1] else [b]).all
    (fun q => x.rbit (Reg.lnkQuad q) 31 && x.rfld (Reg.lnkQuad q) 4 4 == 9)

/-- A write of `LNK_TM_BCFG` (R149, R165): EN from 0 to 1 takes the configuration, clears the counts and leads from
OFF to LOCK; EN 0 leads to OFF. The odd bundle of an enabled 8-lane bundle is unused (R138): it does not come up, and goes
OFF where it is up. -/
def Half.bundleWrite (x : Half) (b : Nat) (v : Word) : Half :=
  let old := wbit (x.reg (Reg.lnkTmBcfg b)) 0
  let y := x.setReg (Reg.lnkTmBcfg b) (v &&& 0xFFFFF801#32)
  if wbit v 0 && !old then
    if b % 2 = 1 ∧ (x.bun (b - 1)).st ≠ .off ∧ lanes8 (b - 1) (x.bun (b - 1)).cfg = true then y
    else
      let y := if lanes8 b v then y.setBun (b + 1) Bundle.zero else y
      let z := (y.setReg (Reg.lnkTmBerr b) 0#32).setBun b { Bundle.zero with st := .lock, cfg := v &&& 0xFFFFF801#32 }
      (bundleLanes b (lanes8 b v)).foldl (fun z l => z.setRBit (Reg.lnkLaneStat l) 2 true) z
  else if !wbit v 0 && old then
    let z := y.setBun b Bundle.zero
    (bundleLanes b (lanes8 b (x.bun b).cfg)).foldl (fun z l => z.setRBit (Reg.lnkLaneStat l) 2 false) z
  else y

/-- BUNDLE_ENABLE (R149, R165). -/
def execBundleEnable (h : HalfId) (m : Master) (b : BitVec 4) (v : Word) (s : State) :
    Host.Outcome State Fault Refusal :=
  .next (s.byMaster h m (fun s => s.upd h (fun x => if b.toNat < 12 then x.bundleWrite b.toNat v else x)))

/-- BUNDLE_LOCK (R142, R149, R460): every lane locked with 64 valid headers; LOCK leads to ALIGN. `past` holds the last 58
bits that each lane of the bundle has received, from which its descrambler goes on. -/
def execBundleLock (h : HalfId) (b : BitVec 4) (past : List (BitVec 58)) (s : State) : Host.Outcome State Fault Refusal :=
  .next (s.upd h (fun x =>
    let u := x.bun b.toNat
    if u.st = .lock ∧ x.bundlePll b.toNat u = true then
      x.setBun b.toNat { u with
        st := .align, good := 0
        scrRx := (past.zipIdx).foldl (fun m p => sput m (u.laneOf b.toNat p.2) 0 p.1.toNat) u.scrRx }
    else x))

/-! ## Packets to be sent (R145) -/

/-- A packet joins those that a bundle sends. -/
def Half.sendPacket (x : Half) (b typ chan pseq : Nat) (payload : Bytes) : Half :=
  let u := x.bun b
  x.setBun b { u with txq := u.txq ++ [⟨typ, chan, pseq, payload⟩] }

/-- Entering ACTIVE or PACKET: both ends set their packet counts to 0, those of every channel bound to the bundle, and the
receiver grants RX_CREDITS (R276). -/
def Half.bundleUp (x : Half) (b : Nat) (st : BundleState) : Half :=
  let u := x.bun b
  let v : Bundle :=
    { u with
      st := st, granted := [], sent := [], pseqTx := 0, pseqRx := 0, replay := []
      resync := false, stream := [], seqRx := none, blocks := 0, ctlQ := [], txPart := [], txq := [], rxSmp := []
      lastCtl := none }
  let y := x.setBun b v
  (List.range 255).foldl (fun y i =>
    let c := y.reg (Reg.txeLch i)
    if fld c 16 4 == b then
      let n := if wbit c 31 then fld c 0 9 else 0
      let z := { y with txe := { y.txe with lchGr := sput y.txe.lchGr (i + 1) 0 n,
                                            lchCnt := sput y.txe.lchCnt (i + 1) 0 0 } }
      if wbit c 31 then z.sendPacket b 4 (i + 1) 0 (leBytes 4 n) else z
    else y) y

/-- A bundle becomes FAILED. -/
def Half.bundleFail (x : Half) (b : Nat) : Half := (x.setBun b { x.bun b with st := .failed }).bundleEvt b 1

/-- PARAM (R149): both ends' LANES8, E and REF_LOCK are compared. -/
def Half.bundleParam (x : Half) (b : Nat) : Half :=
  let u := x.bun b
  let y := (x.setReg (Reg.lnkTmBpeer b) u.peer).setBun b { u with st := .param }
  if u.peerL8 != lanes8 b u.cfg || u.peerE != u.e then y.bundleFail b
  else if u.peerRef && x.refLock then y.setBun b { u with st := .measure, trips := 0 }
  else y.bundleUp b .packet

/-- BUNDLE_ALIGN (R149, R150): after 16 good TRAIN blocks the bundle passes PARAM. -/
def execBundleAlign (h : HalfId) (b : BitVec 4) (s : State) : Host.Outcome State Fault Refusal :=
  .next (s.upd h (fun x =>
    let u := x.bun b.toNat
    if u.st = .align ∧ 16 ≤ u.good then x.bundleParam b.toNat else x))

/-- M = max(D_own, D_peer) + S + 18 (R153). -/
def frozenM (dOwn dPeer span : Nat) : Nat := max dOwn dPeer + span + 18

/-- The frozen latency F for a TARGET T (R153); none where the bundle enters FAILED. -/
def frozenF (t m : Nat) : Option Nat :=
  if t ≠ 0 ∧ t < m then none else if max (max t m) 64 ≤ 1023 then some (max (max t m) 64) else none

/-- This end proposes F: the lower MODULE_ID, or the lower half where they are equal (R152). -/
def Half.proposes (x : Half) (u : Bundle) : Bool :=
  let own := (x.reg Reg.lnkTmModid).toNat
  decide (own < u.peer.toNat) || (own == u.peer.toNat && halfNum x.self == 0 && u.peerHalf)

/-- BUNDLE_MEASURE_DONE (R152, R153, R162): after 64 round trips F is fixed, by the TARGET of the end that proposes it (log entry
90). -/
def execBundleMeasureDone (h : HalfId) (b : BitVec 4) (s : State) : Host.Outcome State Fault Refusal :=
  .next (s.upd h (fun x =>
    let i := b.toNat
    let u := x.bun i
    if u.st = .measure ∧ 64 ≤ u.trips then
      let f := if x.proposes u then frozenF (fld u.cfg 22 10) (frozenM u.dOwn u.dPeer (u.span i))
        else if 64 ≤ u.fPeer ∧ u.fPeer ≤ 1023 then some u.fPeer else none
      match f with
      | none => x.bundleFail i
      | some f => (x.setBun i { u with frozen := f, effE := if u.degraded then min u.e 32 else u.e }).bundleUp i .active
    else x))

/-- The link transactions whose packet `sel` selects (PSEQ, bundle) reach an outcome. -/
def Half.endLink (x : Half) (sel : Nat → Nat → Bool) (f : Txn → Nat × DWord) : Half :=
  let hit (o : Option Txn) : Bool := match o with
    | some t => t.outcome.isNone && (match t.pseq with
      | some (p, b) => sel p b
      | none => false)
    | none => false
  { x with txe := { x.txe with
    txn := x.txe.txn.map (fun e => if hit e.2 then (e.1, e.2.map (fun t => { t with outcome := some (f t) })) else e)
    doneQ := x.txe.doneQ ++ (x.txe.txn.filter (fun e => hit e.2)).map (fun e => e.1) } }

/-- A link transaction ends LINK_LOST when its packet is not acknowledged before DOWN (R147, R277). -/
def Half.linkLost (x : Half) (b : Nat) : Half := x.endLink (fun _ b' => b' == b) (fun _ => (0x26, x.run.cyc))

/-- A bundle enters DOWN (R147, R149, R161). -/
def Half.bundleDown (x : Half) (b : Nat) (lanes : BitVec 8) : Half :=
  let u := x.bun b
  let y := x.linkLost b
  (y.setBun b { u with
    st := .down, laneFlt := lanes, replay := [], stream := [], resync := false, txAt := none, ctlQ := [], txPart := []
    txq := [], rxSmp := [] }).bundleEvt b 0

/-- A training bundle. -/
def Bundle.training (u : Bundle) : Bool :=
  u.st == .lock || u.st == .align || u.st == .param || u.st == .measure

/-- BUNDLE_TIMEOUT (R149): a time-out in LOCK to MEASURE leads to DOWN. -/
def execBundleTimeout (h : HalfId) (b : BitVec 4) (s : State) : Host.Outcome State Fault Refusal :=
  .next (s.upd h (fun x => if (x.bun b.toNat).training then x.bundleDown b.toNat 0#8 else x))

/-- BUNDLE_LANE_LOSS (R161, R162, R277): a lane that loses clock recovery takes its bundle to DOWN. -/
def execBundleLaneLoss (h : HalfId) (b : BitVec 4) (lanes : BitVec 8) (s : State) : Host.Outcome State Fault Refusal :=
  .next (s.upd h (fun x =>
    let u := x.bun b.toNat
    if u.live || u.training then x.bundleDown b.toNat lanes else x))

/-- BUNDLE_DOWN_TIMER (R149, R162): with AUTO_RETRAIN the bundle trains again; an 8-lane one with DEGRADE_OK and lane
faults in one four of its lanes comes up on the other four. -/
def execBundleDownTimer (h : HalfId) (b : BitVec 4) (s : State) : Host.Outcome State Fault Refusal :=
  .next (s.upd h (fun x =>
    let u := x.bun b.toNat
    if u.st = .down ∧ wbit u.cfg 13 = true then
      let low := u.laneFlt &&& 0x0F#8 != 0#8
      let high := u.laneFlt &&& 0xF0#8 != 0#8
      let deg := u.degraded || (lanes8 b.toNat u.cfg && wbit u.cfg 14 && (low != high))
      x.setBun b.toNat { Bundle.zero with st := .lock, cfg := u.cfg, degraded := deg, laneFlt := u.laneFlt }
    else x))

/-! ## Training (R151, R152) -/

/-- A good training record arrives (R151, R152). -/
def Bundle.train (u : Bundle) (r : BitVec 432) (lsc : Nat) : Bundle :=
  let tx := recField r 48 48
  let d := lscDist lsc tx
  let v : Bundle := { u with
    good := u.good + 1, peer := BitVec.ofNat 32 (recField r 0 32), peerL8 := natBit r.toNat 36, peerRef := natBit r.toNat 37,
    peerE := recField r 39 7, peerHalf := natBit r.toNat 46, echoTx := tx, echoAt := lsc, fPeer := recField r 212 10 }
  if u.st = .measure then
    let last := decide (49 ≤ u.trips + 1)
    { v with trips := u.trips + 1, dPeer := recField r 202 10,
             dOwn := if last then max u.dOwn d else u.dOwn }
  else v

/-- The follower's LSC after its 16th round trip: the lead's LSC_TX plus half the round trip, rounded up (R152). -/
def alignedLsc (r : BitVec 432) (lsc : Nat) : Nat :=
  let rtt := lscDist (lscDist lsc (recField r 96 48)) (recField r 144 48)
  mod48 (recField r 48 48 + (rtt + 1) / 2)

/-- The module has one LSC (R164): since a load for JOINED or PAIRED half 1 takes the lead half's. -/
def State.oneCount (s : State) (_ : HalfId) : Bool := s.h1.run.oneLsc

/-- Change the halves that are one member of a group (R164). -/
def State.member (s : State) (h : HalfId) (f : Half → Half) : State := if s.oneCount h then s.both f else s.upd h f

/-- The half whose RUNCFG and DIGEST govern (R164). -/
def State.govern (s : State) (h : HalfId) : HalfId :=
  if s.oneCount h then (if s.h0.run.lead then .h0 else .h1) else h

/-- The `LNK_TM_RUNCFG` that governs the next run of `h` (R164). -/
def State.runcfg (s : State) (h : HalfId) : Word := (s.half (s.govern h)).reg Reg.lnkTmRuncfg

/-- Set the LSC that a half uses (R164). -/
def State.setLsc (s : State) (h : HalfId) (v : Nat) : State :=
  let f (x : Half) : Half := { x with run := { x.run with lsc := BitVec.ofNat 48 v } }
  s.member h f

/-- The lanes of the group that have shown 16 invalid headers in a row (R161). -/
def Bundle.deadLanes (u : Bundle) (b : Nat) : BitVec 8 :=
  BitVec.ofNat 8 ((List.range 8).foldl (fun m l =>
    m + bitNat (decide (16 ≤ sget u.hdrBad l 0)) * 2 ^ (if b % 2 = 1 then (l + 4) % 8 else l)) 0)

/-- A block arrives on the lanes of a bundle; a lane that has shown 16 invalid headers takes the bundle to DOWN (R142, R161). -/
def Half.rxBlock (x : Half) (b : Nat) (w : WireBlock) (f : Half → Half) : Half :=
  let u := ((x.bun b).takeSlices b (wireSlices w)).2
  let y := x.setBun b u
  if u.deadLanes b = 0#8 then f y else y.bundleDown b (u.deadLanes b)

/-- TRAIN_BLOCK (R151, R152): training fields of the peer; a bad block breaks the run of good ones and is counted. -/
def execTrainBlock (h : HalfId) (b : BitVec 4) (w : WireBlock) (s : State) : Host.Outcome State Fault Refusal :=
  let i := b.toNat
  let x := s.half h
  let u := x.bun i
  let (good, r) := u.readTrain i w
  .next (if !u.training || u.st == .lock then s
    else if !good then
      s.upd h (fun x => x.rxBlock i w (fun y => (y.countFld (Reg.lnkTmBerr i) 16 16 1).setBun i { y.bun i with good := 0 }))
    else
      let s1 := s.upd h (fun x => x.rxBlock i w (fun y => y.setBun i ((y.bun i).train r x.lscNat)))
      let follower := wbit u.cfg 11 && !(s.half (s.govern h)).rbit Reg.lnkTmRuncfg 1
      if u.st = .measure ∧ u.trips + 1 = 16 ∧ follower = true then s1.setLsc h (alignedLsc r x.lscNat) else s1)

/-! ## Packets (R145, R146, R275, R276) -/

/-- A flag of `TXE_ERR`, with its interrupt when the flag sets (R283, R286). -/
def Half.txeErr (x : Half) (bit : Nat) : Half :=
  let y := x.setRBit Reg.txeErr bit true
  if y.rbit Reg.txeCtrl 16 && !x.rbit Reg.txeErr bit then y.msix (y.rfld Reg.txeCtrl 8 8) else y

/-- A packet reaches its channel (R146, R275, R276): CHAN 0 is the steward's; another is a link message port, where a
packet beyond the granted credit is discarded. -/
def Half.deliver (x : Half) (b chan : Nat) (payload : Bytes) : Half :=
  if chan = 0 then { x with txe := { x.txe with stwRx := x.txe.stwRx ++ [payload] } }
  else
    let c := x.reg (Reg.txeLch (chan - 1))
    let room := (sget x.txe.lchGr chan 0 + 2 ^ 32 - sget x.txe.lchCnt chan 0) % 2 ^ 32
    if wbit c 31 && fld c 16 4 == b && decide (0 < room) && decide (room < 2 ^ 31) then
      -- a link message has no OSEQ: what an entry shows for it is open
      let (oseq, x) := x.fresh 48
      { x with txe := { x.txe with
        lchCnt := sput x.txe.lchCnt chan 0 ((sget x.txe.lchCnt chan 0 + 1) % 2 ^ 32)
        lchRx := sput x.txe.lchRx (b * 256 + chan) [] (sget x.txe.lchRx (b * 256 + chan) [] ++ [⟨payload, false, oseq.toNat, x.run.cyc⟩]) } }
    else x.txeErr 4

/-- A DATA packet (R146): taken if it is the one expected, and acknowledged. -/
def Half.dataPacket (x : Half) (b chan pseq : Nat) (payload : Bytes) : Half :=
  let u := x.bun b
  if u.live && !u.resync then
    if pseq = u.pseqRx then
      let y := (x.setBun b { u with pseqRx := (u.pseqRx + 1) % 65536 }).deliver b chan payload
      y.sendPacket b 2 chan 0 []
    else x.sendPacket b 2 chan 0 []
  else x

/-- PSEQ `p` comes before `q`, modulo 2^16 (R146). -/
def pseqBefore (p q : Nat) : Bool := decide (0 < (q + 65536 - p) % 65536) && decide ((q + 65536 - p) % 65536 < 32768)

/-- Packets before ACKSEQ leave the replay buffer, and the transactions that sent them complete (R146). -/
def Half.ackPacket (x : Half) (b ack : Nat) : Half :=
  let u := x.bun b
  if u.live then
    let y := x.setBun b { u with replay := u.replay.filter (fun p => !pseqBefore p.pseq ack) }
    y.endLink (fun p b' => b' == b && pseqBefore p ack) (fun t => (0x0B, t.commit.getD x.run.cyc))
  else x

/-- On NAK the sender retransmits from the given PSEQ, from the beginning of a block's packet area (R146); the NAK is counted
(R165). -/
def Half.nakPacket (x : Half) (b ack : Nat) : Half :=
  if (x.bun b).live then
    let y := (x.countFld (Reg.lnkTmBerr b) 0 16 1).ackPacket b ack
    let u := y.bun b
    y.setBun b { u with
      txPart := [], txq := u.replay.map (fun p => ⟨1, p.chan, p.pseq, p.payload⟩) ++ u.txq.filter (fun p => p.typ != 1) }
  else x

/-- A CREDIT packet carries the total granted on its channel (R276). -/
def Half.creditPacket (x : Half) (b chan granted : Nat) : Half :=
  let u := x.bun b
  if u.live then x.setBun b { u with granted := sput u.granted chan 0 granted } else x

/-- One packet of the stream, by its type (R145). -/
def Half.packetIn (x : Half) (b typ chan pseq ack : Nat) (payload : Bytes) : Half :=
  match typ with
  | 1 => (x.ackPacket b ack).dataPacket b chan pseq payload
  | 2 => x.ackPacket b ack
  | 3 => x.nakPacket b ack
  | 4 => x.creditPacket b chan (leNat payload)
  | _ => x

/-- Take the complete packets off the received stream (R145): bytes 0x00 between packets are passed over. -/
def Half.takePackets (x : Half) (b : Nat) : Nat → Half
  | 0 => x
  | n + 1 =>
    let u := x.bun b
    match u.stream with
    | [] => x
    | t :: rest =>
      if t = 0#8 then (x.setBun b { u with stream := rest }).takePackets b n
      else
        let l := leNat ((u.stream.drop 2).take 2)
        if u.stream.length < 8 + l then x
        else
          let y := x.setBun b { u with stream := u.stream.drop (8 + l) }
          (y.packetIn b t.toNat (leNat ((u.stream.drop 1).take 1)) (leNat ((u.stream.drop 4).take 2))
            (leNat ((u.stream.drop 6).take 2)) ((u.stream.drop 8).take l)).takePackets b n

/-- The packet area of a good block joins the stream (R145, R146). -/
def Half.packetArea (x : Half) (b : Nat) (pstart : Bool) (bs : Bytes) : Half :=
  let u := x.bun b
  if u.resync && !pstart then x
  else
    let str := if u.resync then bs else u.stream ++ bs
    (x.setBun b { u with resync := false, stream := str }).takePackets b (str.length + 1)

/-- A bad block counts, and after it packet bytes are discarded until PSTART = 1 and a NAK is sent (R146, R165). -/
def Half.badBlock (x : Half) (b : Nat) : Half :=
  let y := x.countFld (Reg.lnkTmBerr b) 16 16 1
  let u := y.bun b
  (y.setBun b { u with resync := true, stream := [] }).sendPacket b 3 0 0 []

/-- CREDIT_REFRESH (R276): every 1,024 blocks the receiver sends CREDIT for its channels. -/
def execCreditRefresh (h : HalfId) (b : BitVec 4) (s : State) : Host.Outcome State Fault Refusal :=
  .next (s.upd h (fun x =>
    if (x.bun b.toNat).live then
      (List.range 255).foldl (fun y i =>
        let c := y.reg (Reg.txeLch i)
        if wbit c 31 && fld c 16 4 == b.toNat then
          y.sendPacket b.toNat 4 (i + 1) 0 (leBytes 4 (sget y.txe.lchGr (i + 1) 0))
        else y) x
    else x))

/-! ## Linked starts (R155) -/

/-- Bundle `i` of BMASK: bundle `i mod 12` of half `i div 12` (R163). -/
def bmaskHas (cfg : Word) (h b : Nat) : Bool := wbit cfg (2 + 12 * h + b)

/-- The bundles of one half that the group's BMASK names. -/
def Half.maskBundles (x : Half) (cfg : Word) : List Nat := (List.range 12).filter (fun b => bmaskHas cfg (halfNum x.self) b)

/-- The LSC from which RUN blocks are sent for a START_LSC (R155). -/
def sendFrom (start : Nat) : Nat := lscDist start 1024

/-- A block goes out eight times in succession on every bundle of BMASK (R144). -/
def State.sendMask (s : State) (cfg : Word) (kind : Nat) (body : Nat) : State :=
  s.both (fun x => (x.maskBundles cfg).foldl (fun x b =>
    let u := x.bun b
    x.setBun b { u with ctlQ := u.ctlQ ++ List.replicate 8 (kind, body) }) x)

/-! ## What a bundle sends (R141 to R145, R151, R155 to R159) -/

/-- A block leaves with the samples of its span (R143); SEQ advances with every block but SKIP. -/
def Half.sendCtlBlock (x : Half) (b kind : Nat) (pstart : Bool) (body : Nat) : Half :=
  let u := x.bun b
  (x.setBun b { u with
    seqTx := if kind = 7 then u.seqTx else (u.seqTx + 1) % 256
    blocks := if kind = 7 then 0 else u.blocks + 1
    smp := ⟨false, false, false⟩ }).sendSlices b 1#2 (slicesOf (blockBits (ctlOf kind u.smp pstart u.seqTx) body))

/-- A block with exchange bits `v`, `n` of them, and the packet area after them (R145, R157). -/
def Half.putArea (x : Half) (b kind n v : Nat) : Half :=
  let (p, bs, u) := (x.bun b).area (64 - n / 8)
  (x.setBun b u).sendCtlBlock b kind p (v % 2 ^ n + leNat bs * 2 ^ n)

/-- The training record that a bundle sends in the block that begins at LSC `q` (R151, R152). -/
def Half.trainRecord (x : Half) (b q : Nat) : Nat :=
  let u := x.bun b
  let target := fld u.cfg 22 10
  let f := if u.st == .measure && decide (64 ≤ u.trips) && x.proposes u then
      (frozenF target (frozenM u.dOwn u.dPeer (u.span b))).getD 0
    else 0
  let v := (x.reg Reg.lnkTmModid).toNat + b * 2 ^ 32 + bitNat (lanes8 b u.cfg) * 2 ^ 36 + bitNat x.refLock * 2 ^ 37 +
    bitNat (wbit u.cfg 11) * 2 ^ 38 + u.e * 2 ^ 39 + halfNum x.self * 2 ^ 46 + q % 2 ^ 48 * 2 ^ 48 + u.echoTx * 2 ^ 96 +
    lscDist q u.echoAt * 2 ^ 144 + target * 2 ^ 192 + min u.dOwn 1023 * 2 ^ 202 + f * 2 ^ 212
  v + (crc32c (leBytes 50 v)).toNat * 2 ^ 400

/-- Bundle `b` carries exchange bits of the linked run (R139, R155). -/
def Half.inLinked (x : Half) (b : Nat) : Bool :=
  x.run.linked && (x.bun b).st == .active && bmaskHas x.run.linkCfg (halfNum x.self) b

/-- The block that begins at LSC `q` is a RUN block: they are sent from START_LSC − 1,024 until the run stops (R155). -/
def Half.sendsRun (x : Half) (b q : Nat) : Bool :=
  x.inLinked b && x.run.linkSend.any (fun a => decide (lscDist q a < 2 ^ 47))

/-- The block that began at LSC `q` (R144, R149, R157, R159): TRAIN while the bundle trains; else START and ABORT blocks that
wait, SKIP after 4,096 blocks without a common reference, RUN, or IDLE; a throttled sender lets a FILL block follow. -/
def Half.sendBlock (x : Half) (b q : Nat) : Half :=
  let u := x.bun b
  if u.training then
    (x.setBun b { u with tag := (u.tag + 1) % 2 ^ 13, seqTx := (u.seqTx + 1) % 256 }).sendSlices b 2#2
      (trainSlices u.tag (x.trainRecord b q))
  else if u.live then
    let y := match u.ctlQ with
      | (kind, body) :: rest => (x.setBun b { u with ctlQ := rest }).sendCtlBlock b kind false body
      | [] =>
        if u.st = .packet ∧ 4096 ≤ u.blocks then x.sendCtlBlock b 7 false 0
        else if x.sendsRun b q then x.putArea b 2 (u.span b * u.effE) u.acc
        else x.putArea b 1 0 0
    if x.run.throttled then y.putArea b 6 0 0 else y
  else x

/-- The group bits of bundle `b` as LOUT holds them now, the first lowest (R139). -/
def Half.loutBits (x : Half) (b : Nat) : Nat :=
  let u := x.bun b
  let bit (i : Nat) : Bool := (sget x.ar.dst ((i / 8 * 8 + b / 2) * 2048 + 0x690 + i % 8) DstReg.zero).val
  (List.range u.effE).foldl (fun n j => n + bitNat (bit (u.lo b + j)) * 2 ^ j) 0

/-- The end of a step for the sender of bundle `b` (R141, R157): a block begins at every LSC that is a multiple of S, takes the
exchange bits of its steps, and leaves with the last of them. -/
def Half.txStep (x : Half) (b : Nat) : Half :=
  let l := x.lscNat
  let u := x.bun b
  let sp := u.span b
  let u : Bundle := if l % sp = 0 ∧ (u.training || u.live) = true then { u with txAt := some l, acc := 0 } else u
  match u.txAt with
  | none => x
  | some a =>
    let u := if x.inLinked b then { u with acc := u.acc + x.loutBits b * 2 ^ ((l - a) * u.effE) } else u
    let y := x.setBun b u
    if l % sp = sp - 1 ∧ a + sp = l + 1 then y.sendBlock b a else y

/-- The tiles that take the exchange bits of a window (R139). -/
def LinkWindow.tiles (w : LinkWindow) : List Nat := (List.range ((w.e + 7) / 8)).map (fun i => (w.lo / 8 + i) * 8 + w.bundle / 2)

/-- A bad RUN block is recorded in each receiving tile (R131, R132; log entry 87). -/
def Half.linkFault (x : Half) (w : LinkWindow) (step : Nat) : Half := w.tiles.foldl (fun y n => y.xchFault n 0 step 7) x

/-- The faults of bad RUN blocks that fall to this step, at position `pos` of a sub-schedule or in none (R131). -/
def Half.badWindows (x : Half) (pos : Option Nat) : Half :=
  let now (w : LinkWindow) : Bool := w.start == x.lscNat
  let y := { x with ar := { x.ar with linBad := x.ar.linBad.filter (fun w => !now w) } }
  (x.ar.linBad.filter now).foldl (fun y w => y.linkFault w (pos.getD 0xFFF)) y

/-- One step of the link step counter (R148), at position `pos` of a sub-schedule or in none. -/
def Half.lscStep (x : Half) (pos : Option Nat) : Half :=
  let y := (x.bundle.map (fun e => e.1)).foldl (fun y b => y.txStep b) (x.badWindows pos)
  { y with run := { y.run with lsc := y.run.lsc + 1#48 } }

/-- `n` steps of the link step counter outside a sub-schedule. -/
def Half.lscSteps (x : Half) (n : Nat) : Half :=
  if x.bundle.isEmpty && x.ar.linBad.isEmpty then { x with run := { x.run with lsc := x.run.lsc + BitVec.ofNat 48 n } }
  else Nat.repeat (fun y => y.lscStep none) n x

end Sys2Proof.Machine
end

