-- ==== Sys2Proof/Machine/Edge.lean ====
section
/-!
DEFINITION. Machine/Edge.lean: domain descriptors, virtual time, the sorted delay list and the decision of a tick
(R166 to R183).
-/

namespace Sys2Proof.Machine

/-! ## Descriptors (R170 to R172) -/

/-- A domain descriptor (R171). -/
structure Desc where
  first   : Nat
  period  : Nat
  flags   : Nat
  high    : Nat
  dom     : Nat
  rsvd    : Nat
  rbase   : Nat
  rlen    : Nat
  fbase   : Nat
  flen    : Nat
  deriving DecidableEq, Repr

/-- The descriptor that eight words spell (R171). -/
def descOf (w : Nat → Nat) : Desc :=
  { first := w 0 + w 1 * 2 ^ 32, period := w 2 + w 3 % 2 ^ 16 * 2 ^ 32, flags := w 3 / 2 ^ 16,
    high := w 4 + w 5 % 2 ^ 16 * 2 ^ 32, dom := w 5 / 2 ^ 16 % 256, rsvd := w 5 / 2 ^ 24,
    rbase := w 6 % 2 ^ 16, rlen := w 6 / 2 ^ 16, fbase := w 7 % 2 ^ 16, flen := w 7 / 2 ^ 16 }

/-- The descriptor in a slot of a half. -/
def Half.desc (x : Half) (d : Nat) : Desc := descOf (fun i => (x.reg (Reg.edgDesc d i)).toNat)

/-- EN, EXT and FALL_EN of a descriptor. -/
def Desc.en (d : Desc) : Bool := natBit d.flags 0
def Desc.ext (d : Desc) : Bool := natBit d.flags 1
def Desc.fall (d : Desc) : Bool := natBit d.flags 2

/-- The conditions of R172 on an enabled descriptor. -/
def Desc.valid (d : Desc) : Bool :=
  decide (1 ≤ d.rlen) && decide (d.rlen ≤ 4096) && decide (d.rbase + d.rlen ≤ 4096) &&
  (if d.fall then
     decide (1 ≤ d.flen) && decide (d.flen ≤ 4096) && decide (d.fbase + d.flen ≤ 4096) &&
       (decide (d.fbase + d.flen ≤ d.rbase) || decide (d.rbase + d.rlen ≤ d.fbase))
   else d.high == 0 && d.fbase == 0 && d.flen == 0) &&
  (if d.ext then d.first == 0 && d.period == 0 && d.high == 0
   else decide (1 ≤ d.period) && (!d.fall || (decide (1 ≤ d.high) && decide (d.high ≤ d.period - 1)))) &&
  d.rsvd == 0 && decide (d.flags < 8)

/-- The slot of a half that holds a domain in a mode, if any (R170). -/
def slotOf (mode : Mode) (h : HalfId) (dom : Nat) : Option Nat :=
  match mode with
  | .joined => match h with
    | .h0 => if dom < 128 then some dom else none
    | .h1 => if 128 ≤ dom ∧ dom < 256 then some (dom - 128) else none
  | _ => if dom < 128 then some dom else none

/-- The domain number of a slot (R170). -/
def domOf (mode : Mode) (h : HalfId) (slot : Nat) : Nat :=
  match mode, h with
  | .joined, .h1 => 128 + slot
  | _, _ => slot

/-- The half and slot that hold a domain for a half's run: in JOINED the domains of both halves (R34, R177). -/
def domSlot (h : HalfId) (mode : Mode) (dom : Nat) : Option (HalfId × Nat) :=
  match mode with
  | .joined => if dom < 128 then some (.h0, dom) else if dom < 256 then some (.h1, dom - 128) else none
  | _ => if dom < 128 then some (h, dom) else none

/-- The descriptor of a domain as the run of half `h` sees it. -/
def State.domDesc (s : State) (h : HalfId) (mode : Mode) (dom : Nat) : Option Desc :=
  match domSlot h mode dom with
  | some (k, d) => some ((s.half k).desc d)
  | none => none

/-- The domain's descriptor is enabled (R294). -/
def State.domEnabled (s : State) (h : HalfId) (mode : Mode) (dom : Nat) : Bool :=
  match s.domDesc h mode dom with
  | some d => d.en
  | none => false

/-! ## Virtual time (R167, R173, R174) -/

/-- The distance from `u` to `v`, modulo 2^64. -/
def vtDist (u v : DWord) : Nat := (v - u).toNat

/-- The edge that follows a pending edge of a domain (R173). -/
def nextEdge (d : Desc) (e : PendEdge) : PendEdge :=
  if d.fall then
    if e.falling then ⟨e.vt - BitVec.ofNat 64 d.high + BitVec.ofNat 64 d.period, false⟩
    else ⟨e.vt + BitVec.ofNat 64 d.high, true⟩
  else ⟨e.vt + BitVec.ofNat 64 d.period, false⟩

/-- The first edge of a domain later than `vt` (R197): rising and falling edges recur with the period. -/
def firstEdgeAfter (d : Desc) (vt : DWord) : PendEdge :=
  let p := max 1 d.period
  let after (t0 : DWord) : Nat :=
    -- distance from vt to the first of t0, t0 + p, t0 + 2p, ... that is later than vt
    let ahead := vtDist vt t0
    if 0 < ahead ∧ ahead < 2 ^ 63 then ahead
    else p - (2 ^ 64 - ahead) % 2 ^ 64 % p
  let r := after (BitVec.ofNat 64 d.first)
  let f := after (BitVec.ofNat 64 (d.first + d.high))
  if d.fall && decide (f < r) then ⟨vt + BitVec.ofNat 64 f, true⟩ else ⟨vt + BitVec.ofNat 64 r, false⟩

/-- The pending edges of a half with their domains: (distance from its virtual time, domain, edge). -/
def Half.pendList (x : Half) (mode : Mode) : List (Nat × Nat × PendEdge) :=
  x.run.pend.filterMap (fun e =>
    match e.2 with
    | some p => some (vtDist x.run.vt p.vt, domOf mode x.self e.1, p)
    | none => none)

/-- The external set of a decision (R181): the queue from its head, up to the first entry whose domain is already in
it or that is not yet eligible. -/
def extSet (now : Nat) : List ExtEdge → List Due → List Due
  | [], acc => acc
  | e :: q, acc =>
    if now ≤ e.step ∨ acc.any (fun d => d.dom == e.due.dom) = true then acc
    else extSet now q (acc ++ [e.due])

/-- Insert a dispatch in ascending domain number (R176). -/
def insDue (d : Due) : List Due → List Due
  | [] => [d]
  | e :: l => if d.dom < e.dom then d :: e :: l else e :: insDue d l

/-- Dispatches in ascending domain number. -/
def sortDue (l : List Due) : List Due := l.foldl (fun m d => insDue d m) []

/-- The least of a list of numbers. -/
def minNat : List Nat → Option Nat
  | [] => none
  | a :: l => match minNat l with
    | none => some a
    | some b => some (min a b)

/-- The tick that a decision chooses (R182), from the pending edges `ps` of the halves that decide together, the
external set and the gap; none when there is nothing to dispatch. -/
def decideTick (vt : DWord) (gap : Nat) (ps : List (Nat × Nat × PendEdge)) (ext : List Due) : Option Decision :=
  let di := minNat (ps.map (fun p => p.1))
  let internal (t : Nat) : List Due := (ps.filter (fun p => p.1 == t)).map (fun p => ⟨p.2.1, p.2.2.falling⟩)
  match ext, di with
  | [], none => none
  | [], some t => some ⟨vt + BitVec.ofNat 64 t, sortDue (internal t), []⟩
  | _ :: _, some t =>
    if t < gap then some ⟨vt + BitVec.ofNat 64 t, sortDue (internal t), []⟩
    else if t = gap then some ⟨vt + BitVec.ofNat 64 gap, sortDue (internal t ++ ext), ext⟩
    else some ⟨vt + BitVec.ofNat 64 gap, sortDue ext, ext⟩
  | _ :: _, none => some ⟨vt + BitVec.ofNat 64 gap, sortDue ext, ext⟩

/-- EXT_GAP_PS, of at least 1 (R182, R214). -/
def Half.extGap (x : Half) : Nat := max 1 (x.reg Reg.edgExtgap).toNat

/-- Take the entries of an external set off the queue: the first of each (R181). -/
def dropExt : List ExtEdge → List Due → List ExtEdge
  | q, [] => q
  | q, d :: ds => dropExt (q.eraseP (fun e => e.due == d)) ds

/-- Entries of the external-edge queue, with those whose journal record awaits confirmation, room or its replay. -/
def Half.extDepth (x : Half) : Nat :=
  x.run.ext.length + ((x.asr.journal ++ x.asr.waiting).filter (fun r => match r.body with
    | .extEdge _ => !r.conf || r.redo
    | _ => false)).length

end Sys2Proof.Machine
end

