-- ==== Sys2Proof/Machine/Trig.lean ====
section
/-!
DEFINITION. Machine/Trig.lean: descriptors, arming, and the trigger engines (R290 to R304).
-/

namespace Sys2Proof.Machine

/-! ## Engines -/

/-- The code of an engine state (R292). -/
def EngState.code : EngState → Nat
  | .idle => 0 | .pending => 1 | .active => 2 | .triggered => 3 | .done => 4

/-- The control register of an engine. -/
def ctlReg : EngKind → Nat → Nat
  | .trigger, e => Reg.trgCtl e
  | .capture, e => Reg.capCtl e
  | .playback, e => Reg.plyCtl e

/-- The status register of an engine. -/
def statReg : EngKind → Nat → Nat
  | .trigger, e => Reg.trgStat e
  | .capture, e => Reg.capStat e
  | .playback, e => Reg.plyStat e

/-- The state of an engine. -/
def Half.engSt (x : Half) : EngKind → Nat → EngState
  | .trigger, e => (x.trg e).st
  | .capture, e => (x.cap e).st
  | .playback, e => (x.ply e).st

/-- The number of an engine in ARM and ABRT (R196). -/
def engNum : EngKind → Nat → Nat
  | .trigger, e => e
  | .capture, e => 0x10 + e
  | .playback, e => 0x20 + e

/-- The engine that an engine number names (R196). -/
def engOf (n : Nat) : Option (EngKind × Nat) :=
  if n < 4 then some (.trigger, n)
  else if 0x10 ≤ n ∧ n < 0x14 then some (.capture, n - 0x10)
  else if 0x20 ≤ n ∧ n < 0x24 then some (.playback, n - 0x20)
  else none

/-- The interrupt of an engine (R332). -/
def Half.engIrq (x : Half) (k : EngKind) (e : Nat) : Half :=
  if x.rbit (ctlReg k e) 31 then x.msix (x.rfld (ctlReg k e) 23 8) else x

/-- An engine ends: CODE, DONE and the interrupt (R333). -/
def Half.engDone (x : Half) (k : EngKind) (e code : Nat) : Half :=
  let y := (x.setRFld (statReg k e) 16 8 code).setRBit (statReg k e) 0 true
  if x.rbit (statReg k e) 0 then y else y.engIrq k e

/-- The outcome of an abort request: ABORT_CODE, ABORT_DONE and the interrupt (R333); ABRT ends with it. -/
def Half.abortDone (x : Half) (k : EngKind) (e code : Nat) (seq : Bool) : Half :=
  let y := (x.setRFld (statReg k e) 8 8 code).setRBit (statReg k e) 1 true
  let y := if x.rbit (statReg k e) 1 then y else y.engIrq k e
  if seq then
    match y.seq.wait with
    | .abrt wd => y.endWait wd (statusWord code 0)
    | _ => y
  else y

/-- A record whose sequencer instruction no longer waits for it: it has ended, or the record is replayed (R204, R361). -/
def JRec.again (r : JRec) : JRec :=
  match r.body with
  | .control a i _ p => { r with body := .control a i false p }
  | _ => r

/-- The sequencer no longer waits for what ARM and ABRT asked for: the requests still stand (R204). -/
def Half.seqForgets (x : Half) : Half :=
  let drop (q : Option AbortReq) : Option AbortReq := q.map (fun r => { r with seq := false })
  let y := (List.range 4).foldl (fun y e =>
    ((y.setTrg e { y.trg e with abort := drop (y.trg e).abort }).setCap e { y.cap e with abort := drop (y.cap e).abort }).setPly e
      { y.ply e with abort := drop (y.ply e).abort }) x
  { y with
    eng := { y.eng with arming := y.eng.arming.map (fun (a : Nat × Option (Nat × Bool)) =>
      (a.1, a.2.map (fun q => (q.1, false)))) }
    asr := { y.asr with journal := y.asr.journal.map JRec.again, waiting := y.asr.waiting.map JRec.again } }

/-- Events 0 to 271 of replayed cycles are not raised again (R361). -/
def Half.eventB8 (x : Half) (n : Nat) : Half := if x.replaying then x else x.event n

/-! ## Descriptors (R290, R297, R298) -/

/-- A little-endian number inside a byte string. -/
def bn (bs : Bytes) (off n : Nat) : Nat := leNat ((bs.drop off).take n)

/-- `n` entries of the descriptor table from entry `i`, as the engines read SP2 (R238); none lie beyond its 4,096 (R290). -/
def Half.entries (x : Half) (i n : Nat) : Bytes :=
  if 4096 ≤ i then zeros (n * 64) else (x.devRead .engines (spAddr 2 + i * 64) (n * 64)).1

/-- The entries that a descriptor occupies, from its first entry (R290); 0 for an unknown KIND. -/
def descEntries (bs : Bytes) : Nat :=
  match bn bs 0 1 with
  | 1 => 1 + (bn bs 1 1 + 1) / 2
  | 2 => 1
  | 3 => 1 + (bn bs 2 2 + 15) / 16
  | 4 => 1 + (bn bs 2 2 + 7) / 8
  | 5 => 1 + (bn bs 3 1 + 15) / 16
  | _ => 0

/-- The arc at a byte offset of a descriptor. -/
def arcAt (bs : Bytes) (o : Nat) : Arc :=
  { a := bn bs o 2, b := bn bs (o + 2) 2, c := bn bs (o + 4) 2, d := bn bs (o + 6) 2, tt := bn bs (o + 8) 2,
    next := bn bs (o + 10) 1, acts := bn bs (o + 12) 4 }

/-- A source code that an arc may name (R298, R300). -/
def srcOk (c : Nat) : Bool := decide (c < 0x200) && !(decide (0x116 ≤ c) && decide (c ≤ 0x1FD))

/-- The checks of one arc (R298, R300, R301). -/
def arcOk (bs : Bytes) (o states : Nat) : Bool :=
  let a := arcAt bs o
  srcOk a.a && srcOk a.b && srcOk a.c && srcOk a.d && decide (a.next < states) && bn bs (o + 11) 1 == 0 &&
  decide (a.acts < 1024) && decide (bitNat (natBit a.acts 5) + bitNat (natBit a.acts 6) + bitNat (natBit a.acts 7) < 2)

/-- The offset of the first arc of state `k` (R298). -/
def stateOff (k : Nat) : Nat := 64 + 32 * k

/-- A TRIGGER descriptor from its entries, when every field is in range (R294, R297, R298, R301). -/
def trgParse (bs : Bytes) : Option TrgDesc :=
  let n := bn bs 1 1
  let every := natBit (bn bs 0x26 2) 0
  let arcs := (List.range n).flatMap (fun k => [stateOff k, stateOff k + 16])
  let pulse := arcs.any (fun o => natBit (arcAt bs o).acts 7)
  if bn bs 0 1 == 1 && decide (1 ≤ n) && decide (n ≤ 16) && decide (bn bs 2 1 < n) && decide (bn bs 0x26 2 < 2) &&
      (!every || bn bs 3 1 == 0) && decide (bn bs 0x28 4 ≤ 999999999) && bn bs 0x2C 20 == 0 &&
      arcs.all (fun o => arcOk bs o n) &&
      (!pulse || (decide (4 ≤ bn bs 0x0C 4) && decide (bn bs 0x0C 4 ≤ 1000000))) &&
      (n % 2 == 0 || bn bs (stateOff n) 32 == 0) then
    some { init := bn bs 2 1, domain := bn bs 3 1, every := every, cnt0 := bn bs 4 4, cnt1 := bn bs 8 4,
           pulseNs := bn bs 0x0C 4, cycAt := bn bs 0x10 8, vtAt := bn bs 0x18 8, ptpSec := bn bs 0x20 6,
           ptpNs := bn bs 0x28 4,
           states := (List.range n).map (fun k => (arcAt bs (stateOff k), arcAt bs (stateOff k + 16))) }
  else none

/-- A SIGLIST from its entries (R311). -/
def sigParse (bs : Bytes) : Option (List Nat) :=
  let n := bn bs 2 2
  let words := (List.range n).map (fun i => bn bs (64 + 4 * i) 4)
  let ok (w : Nat) : Bool := match natField w 30 2 with
    | 0 => natField w 28 2 == 0
    | 3 => natField w 8 22 == 0
    | _ => natField w 28 2 == 0 && natField w 7 15 == 0
  if bn bs 0 1 == 3 && decide (1 ≤ n) && decide (n ≤ 4096) && bn bs 1 1 == 0 && bn bs 4 60 == 0 && words.all ok &&
      bn bs (64 + 4 * n) ((descEntries bs) * 64 - 64 - 4 * n) == 0 then some words
  else none

/-- A REDLIST from its entries, over `sigs` signals: FIRST, WIDTH and FLAGS of each reduction (R317). -/
def redParse (bs : Bytes) (sigs : Nat) : Option (List (Nat × Nat × Nat)) :=
  let n := bn bs 2 2
  let reds := (List.range n).map (fun i => (bn bs (64 + 8 * i) 2, bn bs (66 + 8 * i) 1, bn bs (67 + 8 * i) 1))
  if bn bs 0 1 == 4 && decide (1 ≤ n) && decide (n ≤ 64) && bn bs 1 1 == 0 && bn bs 4 60 == 0 &&
      reds.all (fun r => decide (1 ≤ r.2.1) && decide (r.2.1 ≤ 64) && decide (r.1 + r.2.1 ≤ sigs) && decide (r.2.2 < 4) &&
        (!natBit r.2.2 1 || r.2.1 == 1)) &&
      (List.range n).all (fun i => bn bs (68 + 8 * i) 4 == 0) then some reds
  else none

/-- The fields of a CAPTURE descriptor are in range, whatever the lists it names hold (R305). -/
def capShape (bs : Bytes) : Bool :=
  let mode := bn bs 1 1
  let fl := bn bs 4 1
  let spill := natField fl 2 2
  let stripe := natBit fl 1
  let key := bn bs 5 1
  let iv := bn bs 0x0C 4
  let rs := bn bs 0x20 8
  let ss := bn bs 0x30 8
  bn bs 0 1 == 2 && decide (mode ≤ 2) && (decide (bn bs 3 1 ≤ 3) || bn bs 3 1 == 0xFF) && decide (fl < 16) && spill != 3 &&
    (if mode = 1 then decide (10 ≤ key) && decide (key ≤ 24) else key == 0) && bn bs 0x0A 2 == 0 &&
    (if mode = 2 then decide (1 ≤ iv) && decide (iv ≤ 16777216) else iv == 0) && decide (1 ≤ bn bs 0x14 4) &&
    bn bs 0x18 8 % 4096 == 0 && decide (65536 ≤ rs) && rs % (if stripe then 8192 else 4096) == 0 &&
    ss % (if stripe && spill == 1 then 8192 else 4096) == 0 && (spill == 0 || bn bs 0x28 8 % 4096 == 0) &&
    (spill != 2 || (decide (65536 ≤ ss) && decide (ss ≤ 2 ^ 32))) && (mode == 1 || bn bs 0x38 8 == 0) &&
    (mode != 1 || bn bs 6 2 == 0) && (mode == 2 || bn bs 8 2 == 0)

/-- A CAPTURE descriptor from its entry and the lists it names (R305). -/
def capParse (idx : Nat) (bs : Bytes) (table : Nat → Bytes) : Option CapDesc :=
  let mode := bn bs 1 1
  let sigs := if mode = 1 then some [] else sigParse (table (bn bs 6 2))
  let reds := match sigs with
    | none => none
    | some l => if mode = 2 then redParse (table (bn bs 8 2)) l.length else some []
  if capShape bs then
    match sigs, reds with
    | some sl, some rl =>
      some { idx := idx, mode := mode, domain := bn bs 2 1, trigEng := bn bs 3 1, flags := bn bs 4 1, keyLog2 := bn bs 5 1,
             interval := bn bs 0x0C 4, pre := bn bs 0x10 4, post := bn bs 0x14 4, regBase := bn bs 0x18 8,
             regSize := bn bs 0x20 8, spBase := bn bs 0x28 8, spSize := bn bs 0x30 8, tileMask := bn bs 0x38 8, sigs := sl,
             reds := rl }
    | _, _ => none
  else none

/-- A PLAYBACK descriptor from its entries (R326). -/
def plyParse (bs : Bytes) : Option PlyDesc :=
  let n := bn bs 3 1
  let words := (List.range n).map (fun i => bn bs (64 + 4 * i) 4)
  let segs := words.map (fun w => (natField w 24 6, natField w 16 8, natField w 0 7))
  let width := bn bs 4 2
  let held := bn bs 1 1 == 1
  let recsz := 8 * ((width + 63) / 64) + (if held then 8 else 0)
  if bn bs 0 1 == 5 && decide (bn bs 1 1 ≤ 1) && decide (1 ≤ n) && decide (n ≤ 64) && decide (1 ≤ width) && decide (width ≤ 4096) &&
      (segs.foldl (fun a s => a + s.2.1) 0) == width && bn bs 6 2 == 0 && bn bs 8 8 % 64 == 0 &&
      decide (bn bs 0x18 8 * recsz ≤ bn bs 0x10 8) && decide (1 ≤ bn bs 0x18 8) && bn bs 0x24 28 == 0 &&
      words.all (fun w => natField w 30 2 == 0 && natField w 7 9 == 0) &&
      segs.all (fun s => decide (1 ≤ s.2.1) && decide (s.2.1 ≤ 128) && decide (s.2.2 + s.2.1 ≤ 128)) then
    some { held := held, domain := bn bs 2 1, width := width, base := bn bs 8 8, size := bn bs 0x10 8,
           vectors := bn bs 0x18 8, loops := bn bs 0x20 4, segs := segs }
  else none

/-! ## Regions (R294, R307, R319) -/

/-- Ranges lie in the half's HBM and meet none of the others. -/
def rangesOk (rs others : List (Nat × Nat)) : Bool :=
  rs.all (fun r => decide (r.2 ≤ 2 * stackBytes) && others.all (fun o => !rangesMeet r o))

/-- The CANVAS slots of a tile in canvas order (R313): the cells of its attribute store hold two slots a byte. -/
def Half.canvasSlots (x : Half) (tile : Nat) : List (Nat × Nat) :=
  (x.mem.filter (fun c => decide (attrBase tile ≤ c.1) && decide (c.1 < attrBase (tile + 1)))).flatMap (fun c =>
    let o := c.1 - attrBase tile
    let g := tile * 1024 + o / 0x800
    let s := 2 * (o % 0x800)
    (if c.2.getLsbD 0 then [(g, s)] else []) ++ (if c.2.getLsbD 4 then [(g, s + 1)] else []))

/-- The included tiles of a canvas capture (R313). -/
def Half.canvasTiles (x : Half) (mask : Nat) : List Nat :=
  (List.range 64).filter (fun n => natBit mask n && !(x.canvasSlots n).isEmpty)

/-- Smax (R319): the largest data record of the mode. -/
def Half.smax (x : Half) (d : CapDesc) : Nat :=
  match d.mode with
  | 0 => 40 + 8 * ((d.sigs.length + 63) / 64)
  | 1 => (x.canvasTiles d.tileMask).foldl (fun a n => a + 8 + 8 * (((x.canvasSlots n).length + 63) / 64)) 40
  | _ => 56 + 24 * d.reds.length

/-- The capacities C_r and C_s (R319). -/
def capRegion (size smax : Nat) : Nat := (size - 36864 - smax) / (smax + 96)
def capSpill (size smax : Nat) : Nat := (size - 4096 - smax) / (smax + 96)

/-- PRE_EFF and POST_EFF (R319). -/
def effCounts (d : CapDesc) (smax : Nat) : Nat × Nat :=
  let cr := capRegion d.regSize smax
  let pe := match natField d.flags 2 2 with
    | 0 => let post := min d.post cr; (min d.pre (cr - post), post)
    | 1 => (min d.pre cr, min d.post (cr + capSpill d.spSize smax))
    | _ => (min d.pre cr, d.post)
  if d.trigEng = 0xFF then (0, pe.2) else pe

/-! ## Arming (R291 to R294) -/

/-- The bits of a playback descriptor, as keys tile × 128 + bit, in vector order (R326). -/
def PlyDesc.bits (d : PlyDesc) : List Nat := d.segs.flatMap (fun s => (List.range s.2.1).map (fun i => s.1 * 128 + s.2.2 + i))

/-- A range of design input bits bound by a DSN register (R442, R507): EN [31], TILE [29:24], FIRST_BIT [6:0]. -/
def Half.dsnBits (x : Half) (reg count : Nat) : List Nat :=
  if x.rbit reg 31 then (List.range count).map (fun i => x.rfld reg 24 6 * 128 + x.rfld reg 0 7 + i) else []

/-- The input bits of the enabled design message ports (R253). -/
def Half.portBits (x : Half) : List Nat :=
  (List.range 256).flatMap (fun p =>
    if x.rbit (Reg.txeDpCfg p) 31 then
      (List.range (8 * 2 ^ x.rfld (Reg.txeDpCfg p) 23 2 + 3)).map
        (fun i => x.rfld (Reg.txeDpCfg p) 25 6 * 128 + x.rfld (Reg.txeDpCfg p) 16 7 + i)
    else [])

/-- The input bits bound to the fabric's cycle channels (R329, R427). -/
def Half.channelBits (x : Half) : List Nat :=
  (List.range 32).flatMap (fun k =>
    if x.rbit (Reg.afbChCfg k) 31 then
      (List.range (x.rfld (Reg.afbChBits k) 8 8)).map
        (fun i => x.rfld (Reg.afbChCfg k) 25 6 * 128 + x.rfld (Reg.afbChBits k) 0 8 + i)
    else [])

/-- A bit is already driven by another source (R329). -/
def Half.bitsTaken (x : Half) (p : Nat) : List Nat :=
  x.portBits ++ x.dsnBits Reg.pinDsnIn 64 ++ x.dsnBits Reg.ptmDsn 96 ++ x.channelBits ++
  ((List.range 4).filter (fun i => i != p && (x.ply i).st.armed)).flatMap (fun i =>
    match (x.ply i).desc with
    | some d => d.bits
    | none => [])

/-- The descriptor at index `i`, read with the `n` entries that one may take up; nothing when it runs past the table's
end (R290). -/
def Half.descAt (x : Half) (i n : Nat) : Bytes :=
  if 4096 < i + descEntries (x.entries i 1) then [] else x.entries i n

/-- The status with which an arm ends, and the engine's half after it (R294, R319). `enabled` says which domains'
descriptors are enabled. A refused arm changes nothing but CODE. -/
def Half.armEngine (x : Half) (k : EngKind) (e idx : Nat) (enabled : Nat → Bool) : Nat × Half :=
  let bs := x.descAt idx 9
  let refuse (c : Nat) : Nat × Half := (c, x.setRFld (statReg k e) 16 8 c)
  let accept (c : Nat) (y : Half) : Nat × Half := (c, y.setRFld (statReg k e) 16 8 c)
  if x.run.loaded.isNone then refuse 0x02
  else if (x.engSt k e).armed then refuse 0x30
  else match k with
  | .trigger =>
    match trgParse bs with
    | none => refuse 0x31
    | some d =>
      if !d.every && !enabled d.domain then refuse 0x32
      else
        let g := x.trg e
        let v : TrgEng := { TrgEng.zero with
          st := .pending, desc := some d, xo := g.xo, pulse := g.pulse, xoQ := g.xoQ, xoTime := g.xoTime }
        accept 0 (x.setTrg e v)
  | .capture =>
    match capParse idx bs (fun i => x.descAt i 260) with
    | none => refuse 0x31
    | some d =>
      let sm := x.smax d
      let (pre, post) := effCounts d sm
      let stripe := natBit d.flags 1
      let bad := capRegion d.regSize sm < 1 ∨ (natField d.flags 2 2 = 1 ∧ capSpill d.spSize sm < 1) ∨
        (stripe = true ∧ (stackBytes < d.regBase + d.regSize / 2 ∨
          (natField d.flags 2 2 = 1 ∧ stackBytes < d.spBase + d.spSize / 2)))
      if !enabled d.domain then refuse 0x32
      else if bad then refuse 0x33
      else if !rangesOk d.ranges (x.portRanges ++ x.asrRanges ++ x.capRanges e ++ x.plyRanges 4) then refuse 0x33
      else if d.mode == 1 && (List.range 4).any (fun i => i != e && (x.cap i).st.armed &&
          ((x.cap i).desc.map (fun q => q.mode)) == some 1) then refuse 0x34
      else if natBit d.flags 0 && x.asr.active then refuse 0x36
      else
        let c := if pre < d.pre ∨ post < d.post then 0x0E else 0
        let v : CapEng := { CapEng.zero with
          st := .pending, desc := some d, preEff := pre, postEff := post, staged := (x.cap e).staged }
        accept c (((x.setCap e v).setReg (Reg.capHsHead e) 0#32).setReg64 (Reg.capSpillLo e) (Reg.capSpillHi e) 0)
  | .playback =>
    match plyParse (x.descAt idx 5) with
    | none => refuse 0x31
    | some d =>
      if !enabled d.domain then refuse 0x32
      else if !rangesOk [(d.base, d.base + d.size)] (x.portRanges ++ x.asrRanges ++ x.capRanges 4 ++ x.plyRanges e) then
        refuse 0x33
      else if d.bits.any (fun b => (x.bitsTaken e).contains b) then refuse 0x35
      else accept 0 (x.setPly e { PlyEng.zero with st := .pending, desc := some d })

/-- Ask for an arm (R291): the request is worked on until ARM_COMPLETE. -/
def Half.armAsk (x : Half) (k : EngKind) (e idx : Nat) (seq : Bool) : Half :=
  { x with eng := { x.eng with arming := sput x.eng.arming (engNum k e) none (some (idx, seq)) } }

/-! ## Trigger evaluation (R299 to R304) -/

/-- PTP time has reached PTP_AT (R302). -/
def TrgDesc.ptpReached (d : TrgDesc) (t : PtpTime) : Bool :=
  decide (d.ptpSec < t.sec.toNat) || (d.ptpSec == t.sec.toNat && decide (d.ptpNs ≤ t.ns.toNat))

/-- The PTP-reached flags of the engines. -/
def Half.ptpFlags (x : Half) : BitVec 4 :=
  BitVec.ofNat 4 ((List.range 4).foldl (fun a e =>
    match (x.trg e).desc with
    | some d => if d.ptpReached x.phc then a + 2 ^ e else a
    | none => a) 0)

/-- The sample taken at B0 (R302), shown in `TRG_XSAMPLE`; the latches are cleared. -/
def Half.takeSample (x : Half) : XtSample × Half :=
  let s : XtSample := ⟨x.eng.xtLevel, x.eng.xtLatch, x.ptpFlags⟩
  (s, ({ x with eng := { x.eng with xtLatch := 0#8 } }).setReg Reg.trgXsample
    (BitVec.ofNat 32 (s.level.toNat + s.edge.toNat * 2 ^ 8 + s.ptp.toNat * 2 ^ 16)))

/-- The value of a source at an evaluation of engine `e` (R300). -/
def Half.trgSource (x : Half) (e : Nat) (g : TrgEng) (d : TrgDesc) (s : XtSample) (c : Nat) : Bool :=
  if c < 0x100 then sget x.ar.trig c false
  else if c < 0x108 then s.level.getLsbD (c - 0x100)
  else if c < 0x110 then s.edge.getLsbD (c - 0x108)
  else match c with
  | 0x110 => g.cnt0 == 0
  | 0x111 => g.cnt1 == 0
  | 0x112 => decide (d.cycAt ≤ x.run.cyc.toNat)
  | 0x113 => decide (vtDist (BitVec.ofNat 64 d.vtAt) x.run.vt < 2 ^ 63)
  | 0x114 => s.ptp.getLsbD e
  | 0x115 => g.fired
  | _ => c == 0x1FF

/-- An arc is true (R299). -/
def Half.arcTrue (x : Half) (e : Nat) (g : TrgEng) (d : TrgDesc) (s : XtSample) (a : Arc) : Bool :=
  palBit a.tt (x.trgSource e g d s a.a) (x.trgSource e g d s a.b) (x.trgSource e g d s a.c) (x.trgSource e g d s a.d)

/-- The arc taken, with its number (R299). -/
def Half.arcTaken (x : Half) (e : Nat) (g : TrgEng) (d : TrgDesc) (s : XtSample) : Option (Nat × Arc) :=
  match d.states[g.tstate]? with
  | none => none
  | some (a0, a1) =>
    if x.arcTrue e g d s a0 then some (0, a0) else if x.arcTrue e g d s a1 then some (1, a1) else none

/-- A counter after an arc's LOAD and DEC bits (R301). -/
def cntAfter (v init acts load : Nat) : Nat :=
  if natBit acts load then init else if natBit acts (load + 1) then v - 1 else v

/-- The XO action that an arc orders, if any (R301). -/
def xoOf (acts : Nat) : Option Nat :=
  if natBit acts 5 then some 0 else if natBit acts 6 then some 1 else if natBit acts 7 then some 2 else none

/-- Captures bound to engine `e` take their trigger (R304, R306). -/
def Half.takeTrigger (x : Half) (t : PtpTime) (e before after arc : Nat) (xo : Bool) : Half :=
  (List.range 4).foldl (fun y c =>
    let q := y.cap c
    match q.desc with
    | some d =>
      if d.trigEng = e ∧ q.st = .active ∧ q.trigCyc = none then
        y.setCap c { q with
          trigCyc := some x.run.cyc, st := .triggered
          trig := some ⟨x.run.cyc, x.run.vt, t, e, before, after, arc, xo, none⟩ }
      else y
    | none => y) x

/-- The effects of a taken arc (R299, R301, R303, R304). -/
def Half.takeArc (x : Half) (t : PtpTime) (e : Nat) (g : TrgEng) (d : TrgDesc) (n : Nat) (a : Arc) : Half :=
  let fire := natBit a.acts 0
  let xo := xoOf a.acts
  let drive := !x.replaying && (x.run.mode != .paired || x.run.lead)
  let g' : TrgEng := { g with
    tstate := a.next, cnt0 := cntAfter g.cnt0 d.cnt0 a.acts 1, cnt1 := cntAfter g.cnt1 d.cnt1 a.acts 3
    fired := g.fired || fire
    xoQ := match xo with
      | some o => if drive then g.xoQ ++ [⟨o, if fire then some x.run.cyc else none⟩] else g.xoQ
      | none => g.xoQ }
  let y := x.setTrg e g'
  let y := if fire && !g.fired then y.setReg64 (Reg.trgFireCycLo e) (Reg.trgFireCycHi e) x.run.cyc.toNat else y
  let y := if fire then (y.takeTrigger t e g.tstate a.next n xo.isSome).eventB8 (258 + e) else y
  if natBit a.acts 9 then (y.setTrg e { y.trg e with st := .done }).engDone .trigger e 0x0B else y

/-- The sample an evaluation uses, and the engine that has used it (R302); `own` is this boundary's, used in the first
evaluation. -/
def TrgEng.useSample (g : TrgEng) (own : XtSample) : XtSample × TrgEng := (g.prev.getD own, { g with prev := some own })

/-- The same with assured operation active (R302): the newest accepted sample, with the transitions of those skipped since the
one used before; `first` at the first evaluation. None may have been accepted yet: what is used then is open. -/
def Half.acceptedSample (x : Half) (g : TrgEng) (first : Bool) : XtSample × TrgEng :=
  let o := Config.openSample (if x.run.mode = .paired then 0 else halfNum x.self) x.run.cyc.toNat
  match (if first then x.eng.xtNew else g.prev), (if first then none else g.used) with
  | some s, _ => (s, { g with used := some { s with edge := 0 }, prev := none })
  | none, some s => (s, g)
  | none, none => (⟨o.setWidth 8, (o >>> (8 : Nat)).setWidth 8, (o >>> (16 : Nat)).setWidth 4⟩, { g with prev := none, used := none })

/-- A MARK is ordered from every capture bound to engine `e` (R301, R318). -/
def Half.takeMark (x : Half) (t : PtpTime) (e after : Nat) : Half :=
  (List.range 4).foldl (fun y c =>
    let q := y.cap c
    if (q.st = .active ∨ q.st = .triggered) ∧ q.desc.map (fun d => d.trigEng) = some e then
      y.setCap c { q with marks := q.marks ++ [(e, after, x.run.cyc, x.run.vt, t)] }
    else y) x

/-- One trigger engine at B8 of a boundary of domain `dom` (R293, R295, R299): `own` is the sample of this boundary's
B0, `t` the PTP time that records show. -/
def Half.trgEval (x : Half) (dom : Nat) (own : XtSample) (t : PtpTime) (e : Nat) : Half :=
  let g0 := x.trg e
  match g0.desc with
  | none => x
  | some d =>
    if !(d.every || d.domain == dom) || !(g0.st == .pending || g0.st == .active) then x
    else
      let start := g0.st == .pending
      let g1 : TrgEng := if start then { g0 with
          st := .active, tstate := d.init, cnt0 := d.cnt0, cnt1 := d.cnt1, fired := false, xo := g0.xo && x.replaying }
        else g0
      let x1 := if start then x.setReg64 (Reg.trgFireCycLo e) (Reg.trgFireCycHi e) (2 ^ 64 - 1) else x
      let (s, g) := if x.asr.active then x.acceptedSample g1 start else g1.useSample own
      match x1.arcTaken e g d s, g.abort with
      | some (n, a), ab =>
        if ab.isSome && !natBit a.acts 9 then
          ((x1.setTrg e { g with st := .done, abort := none }).engDone .trigger e 0x0C).abortDone .trigger e 0x0C
            (ab.any (fun q => q.seq))
        else
          let y := x1.takeArc t e { g with abort := none } d n a
          let y := if natBit a.acts 8 then y.takeMark t e a.next else y
          match ab with
          | some q => y.abortDone .trigger e 0x0D q.seq
          | none => y
      | none, some q =>
        ((x1.setTrg e { g with st := .done, abort := none }).engDone .trigger e 0x0C).abortDone .trigger e 0x0C q.seq
      | none, none => x1.setTrg e g

/-- Patch the TRIGGER record that waits for its XO time (R318). -/
def patchXo (bs : Bytes) (t : PtpTime) : Bytes :=
  bs.take 0x30 ++ leBytes 6 t.sec.toNat ++ leBytes 2 t.frac.toNat ++ leBytes 4 t.ns.toNat ++ bs.drop 0x3C

/-- The waiting TRIGGER record of trigger cycle `n` takes its XO time. -/
def patchFirst (n : DWord) (t : PtpTime) : List StagedRec → List StagedRec
  | [] => []
  | r :: l =>
    if r.wait && bn r.bytes 8 8 == n.toNat then { r with bytes := patchXo r.bytes t, wait := false } :: l else r :: patchFirst n t l

/-- The captures bound to engine `e` that it fired in cycle `n` learn when the XO action of its firing arc took effect
(R318). -/
def Half.xoKnown (x : Half) (e : Nat) (n : DWord) (t : PtpTime) : Half :=
  (List.range 4).foldl (fun y c =>
    let q := y.cap c
    if q.desc.map (fun d => d.trigEng) = some e then
      match q.trig with
      | some g => if g.xo && g.xoAt.isNone && g.cyc == n then y.setCap c { q with trig := some { g with xoAt := some t } }
          else y.setCap c { q with staged := patchFirst n t q.staged }
      | none => y.setCap c { q with staged := patchFirst n t q.staged }
    else y) x

/-- XO_ACTION (R303): the oldest XO action ordered takes effect at the function, and its PTP time is latched. -/
def execXoAction (h : HalfId) (e : BitVec 2) (s : State) : Host.Outcome State Fault Refusal :=
  let x := s.half h
  let g := x.trg e.toNat
  .next (match g.xoQ with
    | [] => s
    | o :: q =>
      let s1 := s.setHalf h (x.setTrg e.toNat { g with xoQ := q, xo := o.op != 1, pulse := o.op == 2, xoTime := x.phc })
      match o.fire with
      | some n =>
        if x.run.mode = .paired then s1.both (fun y => y.xoKnown e.toNat n x.phc)
        else s1.upd h (fun y => y.xoKnown e.toNat n x.phc)
      | none => s1)

/-- XO_PULSE_END (R303): a pulse in progress ends. -/
def execXoPulseEnd (h : HalfId) (e : BitVec 2) (s : State) : Host.Outcome State Fault Refusal :=
  .next (s.upd h (fun x =>
    let g := x.trg e.toNat
    if g.pulse then x.setTrg e.toNat { g with xo := false, pulse := false } else x))

end Sys2Proof.Machine
end

