-- ==== Sys2Proof/Machine/Capture.lean ====
section
/-!
DEFINITION. Machine/Capture.lean: capture engines: records, ring, spill and host stream (R305 to R325).
-/

namespace Sys2Proof.Machine

/-! ## Placement (R307, R320) -/

/-- The device address of logical byte `x` of a region or HBM spill (R307). -/
def regionAddr (base : Nat) (stripe : Bool) (x : Nat) : Nat :=
  if stripe then hbmBase + x / 4096 % 2 * stackBytes + base + x / 8192 * 4096 + x % 4096 else hbmBase + base + x

/-- Write a byte string at logical byte `off` of a region. -/
def Half.wrRegion (x : Half) (base : Nat) (stripe : Bool) : Nat → Bytes → Half
  | _, [] => x
  | off, b :: bs =>
    let a := regionAddr base stripe off
    ({ (x.eccClear a 1) with mem := wrByte x.mem a b }).wrRegion base stripe (off + 1) bs

/-- Bytes formed and not yet written (R321). -/
def CapEng.outstanding (q : CapEng) : Nat := q.staged.foldl (fun a r => a + r.bytes.length) 0

/-- HEAD of a host ring (R335). -/
def Half.hsHead (x : Half) (c : Nat) : Nat := x.rfld (Reg.capHsHead c) 3 29 * 8

/-- Free bytes of a host ring: all of it when TAIL is at HEAD, which counts as empty. -/
def hsFree (head tail size : Nat) : Nat := if head = tail then size else (head + size - tail) % size

/-- A staged record of a host ring. -/
def StagedRec.onHost (r : StagedRec) : Bool :=
  match r.dest with
  | .host .. => true
  | _ => false

/-- The host ring of engine `c` is full (R320): the next record waiting for it, with the PAD before it, would reach HEAD; where
none waits, one of Smax bytes. Records that a replay does not write again fill nothing (R325). -/
def Half.hsFull (x : Half) (c : Nat) : Bool :=
  let q := x.cap c
  if 0 < q.hsSkip then false
  else match q.staged.filter StagedRec.onHost with
  | ⟨.host _ off size, bs, _⟩ :: rest =>
    let need := if bn bs 0 1 = 0x0A then size - off + (match rest with
        | r :: _ => r.bytes.length
        | [] => 0)
      else bs.length
    decide (hsFree (x.hsHead c) q.hsTail size ≤ need)
  | _ =>
    match q.desc with
    | some d =>
      if natField d.flags 2 2 = 2 ∧ q.st.armed = true then
        let sm := x.smax d
        let pad := if q.hsForm + sm ≤ d.spSize then 0 else d.spSize - q.hsForm
        decide (hsFree (x.hsHead c) q.hsTail d.spSize ≤ sm + pad)
      else false
    | none => false

/-- A capture buffer is full: too many outstanding bytes, or a full host ring (R321). -/
def Half.capFull (x : Half) (c : Nat) : Bool := decide (163712 < (x.cap c).outstanding) || x.hsFull c

/-- The stall condition of R31 and R321: a capture buffer full in stall mode. -/
def Half.capStall (x : Half) : Bool :=
  (List.range 4).any (fun c =>
    match (x.cap c).desc with
    | some d => !natBit d.flags 0 && x.capFull c
    | none => false)

/-! ## Records (R308 to R318) -/

/-- The half's PTP clock is synchronised (R308, R309). -/
def Half.ptpSynced (x : Half) : Bool := x.rbit Reg.ptmStatus 2

/-- The cycle that a record names: counter, virtual time and PTP time (R308). -/
structure RecAt where
  cyc : DWord
  vt  : DWord
  ptp : PtpTime
  deriving DecidableEq, Repr

/-- The record header and body (R308), padded with 0 to a multiple of 8. -/
def recBytes (x : Half) (c typ flags rseq : Nat) (w : RecAt) (body : Bytes) : Bytes :=
  let len := (40 + body.length + 7) / 8 * 8
  leBytes 1 typ ++ leBytes 1 flags ++ leBytes 1 (halfNum x.self * 128 + c) ++ [0#8] ++ leBytes 4 len ++
    leBytes 8 w.cyc.toNat ++ leBytes 8 w.vt.toNat ++ leBytes 6 w.ptp.sec.toNat ++ leBytes 2 w.ptp.frac.toNat ++
    leBytes 4 w.ptp.ns.toNat ++ leBytes 4 rseq ++ body ++ zeros (len - 40 - body.length)

/-- A PAD record of `len` bytes: its 8 header bytes (R308). -/
def padBytes (x : Half) (c len : Nat) : Bytes :=
  [0x0A#8, 0#8] ++ leBytes 1 (halfNum x.self * 128 + c) ++ [0#8] ++ leBytes 4 len

/-- Put a record into the ring at WPTR (R307): what it overwrites is no longer retained. -/
def CapEng.toRing (q : CapEng) (x : Half) (c : Nat) (d : CapDesc) (bs : Bytes) (data wait : Bool) : CapEng :=
  let stripe := natBit d.flags 1
  let wraps := d.regSize < q.wptr + bs.length
  let off := if wraps then 0x8000 else q.wptr
  let keep (r : RingRec) : Bool :=
    !(decide (r.off < off + bs.length) && decide (off < r.off + r.len)) && !(wraps && decide (q.wptr ≤ r.off))
  { q with
    wptr := off + bs.length
    ring := q.ring.filter keep ++ [⟨off, bs.length, q.j, data⟩]
    staged := q.staged ++
      (if wraps && decide (q.wptr < d.regSize) then
        [⟨.region d.regBase q.wptr stripe, padBytes x c (d.regSize - q.wptr), false⟩] else []) ++
      [⟨.region d.regBase off stripe, bs, wait⟩] }

/-- Would a record overwrite a protected one (R320)? -/
def CapEng.hits (q : CapEng) (d : CapDesc) (len : Nat) : Bool :=
  match q.prot with
  | none => false
  | some p =>
    let wraps := d.regSize < q.wptr + len
    let off := if wraps then 0x8000 else q.wptr
    q.ring.any (fun r => decide (p ≤ r.b8) &&
      ((decide (r.off < off + len) && decide (off < r.off + r.len)) || (wraps && decide (q.wptr ≤ r.off))))

/-- Put a record into the spill target (R320). -/
def CapEng.toSpillTarget (q : CapEng) (x : Half) (c : Nat) (d : CapDesc) (bs : Bytes) (wait : Bool) : CapEng :=
  if natField d.flags 2 2 = 1 then
    { q with
      toSpill := true, spill := q.spill + bs.length
      staged := q.staged ++ [⟨.spill d.spBase q.spill (natBit d.flags 1), bs, wait⟩] }
  else
    let wraps := d.spSize < q.hsForm + bs.length
    let off := if wraps then 0 else q.hsForm
    { q with
      toSpill := true, hsForm := (off + bs.length) % d.spSize
      staged := q.staged ++
        (if wraps && decide (q.hsForm < d.spSize) then
          [⟨.host d.spBase q.hsForm d.spSize, padBytes x c (d.spSize - q.hsForm), false⟩] else []) ++
        [⟨.host d.spBase off d.spSize, bs, wait⟩] }

/-- Form a record: the next RSEQ, in the ring or at the spill target (R308, R320). -/
def Half.form (x : Half) (c typ flags : Nat) (w : RecAt) (body : Bytes) (data wait : Bool) : Half :=
  let q := x.cap c
  match q.desc with
  | none => x
  | some d =>
    let fl := flags + (if x.replaying then 8 else 0) + (if x.ptpSynced then 0 else 16)
    let bs := recBytes x c typ fl q.rseq w body
    let q := { q with rseq := (q.rseq + 1) % 2 ^ 32 }
    if q.toSpill || (natField d.flags 2 2 != 0 && q.hits d bs.length) then x.setCap c (q.toSpillTarget x c d bs wait)
    else x.setCap c (q.toRing x c d bs data wait)

/-- The START record, at logical offset 0 (R310). -/
def Half.formStart (x : Half) (c : Nat) (d : CapDesc) (w : RecAt) : Half :=
  let q := x.cap c
  let body := leBytes 2 d.idx ++ leBytes 1 d.mode ++ leBytes 1 d.domain ++ leBytes 1 d.trigEng ++ leBytes 1 d.keyLog2 ++
    leBytes 2 d.flags ++ leBytes 2 d.sigs.length ++ leBytes 2 d.reds.length ++ leBytes 4 d.interval ++
    leBytes 4 q.preEff ++ leBytes 4 q.postEff ++ leBytes 8 d.tileMask ++ d.sigs.flatMap (leBytes 4) ++
    d.reds.flatMap (fun r => leBytes 2 r.1 ++ leBytes 1 r.2.1 ++ leBytes 1 r.2.2 ++ zeros 4)
  let fl := (if x.replaying then 8 else 0) + (if x.ptpSynced then 0 else 16)
  x.setCap c { q with
    rseq := 1, staged := q.staged ++ [⟨.region d.regBase 0 (natBit d.flags 1), recBytes x c 1 fl 0 w body, false⟩] }

/-! ## Signals (R311 to R315) -/

/-- A slot as B8 sees it; a slot of an unserved BP reads 0 (R311). -/
def Half.slotB8 (x : Half) (g s : Nat) : Bool := if x.unserved g then false else x.slot g s

/-- The value of a signal word (R311). -/
def Half.signal (x : Half) (w : Nat) : Bool :=
  match natField w 30 2 with
  | 0 => x.slotB8 (natField w 22 6 * 1024 + natField w 12 10) (natField w 0 12)
  | 1 => sget x.ar.din (natField w 22 6 * 128 + natField w 0 7) false
  | 2 => sget x.ar.dout (natField w 22 6 * 128 + natField w 0 7) false
  | _ => sget x.ar.trig (natField w 0 8) false

/-- A number from bits, the least significant first. -/
def bitsNat : List Bool → Nat
  | [] => 0
  | b :: bs => bitNat b + 2 * bitsNat bs

/-- Bits packed into 64-bit words, the first lowest (R312, R314). -/
def packBits (bs : List Bool) : Bytes := leBytes (8 * ((bs.length + 63) / 64)) (bitsNat bs)

/-- The canvas vectors of the included tiles (R313). -/
def Half.canvasNow (x : Half) (mask : Nat) : List (Nat × List Bool) :=
  (x.canvasTiles mask).map (fun n => (n, (x.canvasSlots n).map (fun p => x.slotB8 p.1 p.2)))

/-- The body of a keyframe (R314). -/
def keyBody (vs : List (Nat × List Bool)) : Bytes :=
  vs.flatMap (fun v => leBytes 1 v.1 ++ zeros 3 ++ leBytes 4 v.2.length ++ packBits v.2)

/-- An unsigned LEB128 varint (R315), by fuel. -/
def leb : Nat → Nat → Bytes
  | 0, _ => []
  | n + 1, v => if v < 128 then [BitVec.ofNat 8 v] else BitVec.ofNat 8 (v % 128 + 128) :: leb n (v / 128)

/-- The (SKIP, LEN) pairs that turn one vector into another (R315); `skip` and `len` count the pair in the making. -/
def runs : List Bool → List Bool → Nat → Nat → List (Nat × Nat)
  | a :: as, b :: bs, skip, len =>
    if a != b then runs as bs skip (len + 1)
    else if len = 0 then runs as bs (skip + 1) 0
    else (skip, len) :: runs as bs 1 0
  | _, _, skip, len => if len = 0 then [] else [(skip, len)]

/-- The block of one tile in a delta body; empty when no bit differs (R315). -/
def deltaBlock (tile : Nat) (old new : List Bool) : Bytes :=
  let rs := runs old new 0 0
  if rs.isEmpty then []
  else
    let code := rs.flatMap (fun r => leb 10 r.1 ++ leb 10 r.2)
    leBytes 1 tile ++ zeros 3 ++ leBytes 4 code.length ++ code ++ zeros ((code.length + 7) / 8 * 8 - code.length)

/-- The body of a delta (R315). -/
def deltaBody (old new : List (Nat × List Bool)) : Bytes :=
  new.flatMap (fun v => match old.find? (fun o => o.1 == v.1) with
    | some o => deltaBlock v.1 o.2 v.2
    | none => [])

/-! ## Envelope (R317) -/

/-- A recorded cycle of an interval: cycle, virtual time and signals. -/
abbrev EnvCyc := DWord × DWord × Option (List Bool)

/-- The value of a bus in one recorded cycle. -/
def busVal (r : Nat × Nat × Nat) (sg : List Bool) : Nat := bitsNat ((sg.drop r.1).take r.2.1)

/-- A bus value as MIN and MAX compare it: signed when SIGNED is 1. -/
def busInt (r : Nat × Nat × Nat) (v : Nat) : Int :=
  if natBit r.2.2 0 && natBit v (r.2.1 - 1) then (v : Int) - (2 ^ r.2.1 : Nat) else v

/-- The 64-bit two's complement of a number. -/
def int64 (v : Int) : Nat := (BitVec.ofInt 64 v).toNat

/-- MIN, MAX and SPAN of a bus over the recorded cycles (R317). -/
def busBody (r : Nat × Nat × Nat) (cs : List (List Bool)) : Bytes :=
  match cs.map (fun sg => busInt r (busVal r sg)) with
  | [] => zeros 24
  | v :: vs =>
    let mn := vs.foldl min v
    let mx := vs.foldl max v
    leBytes 8 (int64 mn) ++ leBytes 8 (int64 mx) ++ leBytes 8 (int64 (mx - mn))

/-- The edges of a bit over an interval: its virtual time, and whether it rises (R317). The first recorded cycle and the
first after a gap is never an edge. -/
def bitEdges (k : Nat) : Option Bool → List EnvCyc → List (DWord × Bool)
  | _, [] => []
  | prev, (_, vt, sg) :: l =>
    match sg with
    | none => bitEdges k none l
    | some sg =>
      let b := (sg[k]?).getD false
      match prev with
      | some a => if a != b then (vt, b) :: bitEdges k (some b) l else bitEdges k (some b) l
      | none => bitEdges k (some b) l

/-- The last rising edge that is followed by a falling one, and that falling edge. -/
def lastHigh : List (DWord × Bool) → Option (DWord × DWord)
  | [] => none
  | e :: l =>
    match lastHigh l with
    | some p => some p
    | none =>
      if e.2 then
        match l.find? (fun f => !f.2) with
        | some f => some (e.1, f.1)
        | none => none
      else none

/-- EDGES, PERIOD_PS and HIGH_PS of a bit over an interval (R317). -/
def bitBody (k : Nat) (prev : Option (List Bool)) (cs : List EnvCyc) : Bytes :=
  let es := bitEdges k (prev.map (fun sg => (sg[k]?).getD false)) cs
  let rises := (es.filter (fun e => e.2)).reverse
  let period := match rises with
    | a :: b :: _ => vtDist b.1 a.1
    | _ => 0
  let high := match lastHigh es with
    | some (a, b) => vtDist a b
    | none => 0
  leBytes 4 es.length ++ zeros 4 ++ leBytes 8 period ++ leBytes 8 high

/-- The body of an ENVELOPE record (R317). -/
def envBody (d : CapDesc) (prev : Option (List Bool)) (cs : List EnvCyc) : Bytes :=
  let rec_ := cs.filterMap (fun c => c.2.2)
  let first := match cs with
    | c :: _ => c.1
    | [] => 0#64
  leBytes 8 first.toNat ++ leBytes 4 rec_.length ++ zeros 4 ++
    d.reds.flatMap (fun r => if natBit r.2.2 1 then bitBody r.1 prev cs else busBody r rec_)

/-! ## B8 of a capture engine (R306, R318, R321) -/

/-- The GAP record of the cycles missed so far (R318, R321). -/
def Half.formGap (x : Half) (c : Nat) : Half :=
  let q := x.cap c
  match q.missAt with
  | some (cyc, vt, t) =>
    let y := x.form c 8 0 ⟨cyc, vt, t⟩ (leBytes 8 q.missed) false false
    y.setCap c { y.cap c with missed := 0, missAt := none, force := true }
  | none => x

/-- The TRIGGER record of a trigger taken and not yet recorded (R318). In replay the XO action is not driven (R325), so
the time at which it took effect is open. -/
def Half.formTrigger (x : Half) (c : Nat) : Half :=
  match (x.cap c).trig with
  | none => x
  | some g =>
    let (free, x) := if g.xo && x.replaying then x.fresh 96 else (0#96, x)
    let time : Bytes := match g.xo, g.xoAt with
      | true, some t => leBytes 6 t.sec.toNat ++ leBytes 2 t.frac.toNat ++ leBytes 4 t.ns.toNat
      | _, _ => leBytes 12 free.toNat
    let wait := g.xo && g.xoAt.isNone && !x.replaying
    let body := leBytes 1 g.eng ++ leBytes 1 g.before ++ leBytes 1 g.after ++ leBytes 1 g.arc ++ zeros 4 ++ time ++ zeros 4
    let y := x.form c 6 0 ⟨g.cyc, g.vt, g.ptp⟩ body false wait
    y.setCap c { y.cap c with trig := none }

/-- The MARK records ordered (R318). -/
def Half.formMarks (x : Half) (c : Nat) : Half :=
  let ms := (x.cap c).marks
  let y := ms.foldl (fun y m => y.form c 7 0 ⟨m.2.2.1, m.2.2.2.1, m.2.2.2.2⟩ (leBytes 1 m.1 ++ leBytes 1 m.2.1 ++ zeros 6)
    false false) x
  y.setCap c { y.cap c with marks := [] }

/-- A data record is due at this B8 (R306): every cycle, or the last cycle of an interval. -/
def CapEng.dataDue (q : CapEng) (d : CapDesc) : Bool := d.mode != 2 || (q.j + 1) % max 1 d.interval == 0

/-- The data record of this B8, if one is due (R306, R312 to R317). -/
def Half.formData (x : Half) (c : Nat) (d : CapDesc) (w : RecAt) : Half :=
  let q := x.cap c
  let fl := if q.st == .triggered then 2 else 1
  match d.mode with
  | 0 => x.form c 4 fl w (packBits (d.sigs.map x.signal)) true false
  | 1 =>
    let now := x.canvasNow d.tileMask
    let key := keyBody now
    let sched := q.j % 2 ^ d.keyLog2 == 0
    let delta := deltaBody q.canvas now
    let isKey := sched || q.force || decide (key.length < delta.length)
    let y := if isKey then x.form c 2 (fl + (if sched then 0 else 4)) w key true false else x.form c 3 fl w delta true false
    y.setCap c { y.cap c with canvas := now, force := false }
  | _ =>
    if q.dataDue d then
      let y := x.form c 5 fl w (envBody d q.envPrev q.env) true false
      y.setCap c { y.cap c with env := [], envPrev := (match q.env.getLast? with
        | some e => e.2.2
        | none => none) }
    else x

/-- The END record, and the engine is DONE (R306, R318, R333). -/
def Half.formEnd (x : Half) (c code : Nat) (w : RecAt) : Half :=
  let q := x.cap c
  let kept := (q.ring.filter (fun r => r.data && (q.prot.isNone || decide (r.b8 < q.trigB8)))).length
  let body := leBytes 1 code ++ zeros 3 ++ leBytes 4 kept ++ leBytes 8 q.formed ++ leBytes 8 q.gaps ++
    leBytes 8 (match q.trigCyc with
      | some t => t.toNat
      | none => 2 ^ 64 - 1)
  let y := x.form c 9 (if code = 0x0C then 32 else 0) w body false false
  (y.setCap c { y.cap c with st := .done, abort := none }).engDone .capture c code

/-- The arm point (R293, R306, R310): the START record is formed; with TRIG_ENG 0xFF the trigger is taken. -/
def Half.capStart (x : Half) (c : Nat) (w : RecAt) : Half :=
  let q := x.cap c
  match q.desc with
  | some d =>
    if q.st = .pending then
      let y := x.formStart c d w
      let q := y.cap c
      let y := y.setCap c { q with st := .active, j := 0 }
      if d.trigEng = 0xFF then
        let q := y.cap c
        y.setCap c { q with
          st := .triggered, trigCyc := some w.cyc, trig := some ⟨w.cyc, w.vt, w.ptp, 0xFF, 0, 0, 0, false, none⟩ }
      else y
    else x
  | none => x

/-- From the trigger on, the last PRE_EFF data records, the control records formed with them, and every later record are
protected (R320): the B8 from which that holds is fixed at the first B8 of the domain at or after the trigger. -/
def CapEng.protect (q : CapEng) (d : CapDesc) : CapEng :=
  if q.trigCyc.isSome && q.prot.isNone then
    let unit := if d.mode = 2 then max 1 d.interval else 1
    let first := q.j / unit * unit
    { q with prot := some (first - q.preEff * unit), trigB8 := first }
  else q

/-- One capture engine at B8 of a boundary of its domain, after the trigger engines (R306, R295, R321). -/
def Half.capB8 (x : Half) (c : Nat) (w : RecAt) : Half :=
  let q0 := x.cap c
  match q0.desc with
  | none => x
  | some d =>
    if !(q0.st == .active || q0.st == .triggered) then x
    else
      let x := x.setCap c (q0.protect d)
      let q := x.cap c
      let post := q.trigCyc.isSome
      let due := q.dataDue d
      let last := post && due && q.posted + 1 == q.postEff
      let full := natBit d.flags 0 && x.capFull c
      -- the engine's counts after this cycle
      let count (y : Half) (formed : Bool) : Half :=
        let r := y.cap c
        y.setCap c { r with
          j := r.j + 1, posted := r.posted + bitNat (post && due), formed := r.formed + bitNat (post && due && formed) }
      let miss (y : Half) : Half :=
        let r := y.cap c
        y.setCap c { r with
          missed := r.missed + 1, gaps := r.gaps + 1, marks := []
          missAt := some (r.missAt.getD (w.cyc, w.vt, w.ptp)), env := if d.mode = 2 then r.env ++ [(w.cyc, w.vt, none)] else [] }
      let record (y : Half) : Half :=
        let y := ((y.formGap c).formTrigger c).formMarks c
        if d.mode = 2 then
          let r := y.cap c
          y.setCap c { r with env := r.env ++ [(w.cyc, w.vt, some (d.sigs.map y.signal))] }
        else y
      if last then
        let y := if full then (count (miss x) false).formGap c else count ((record x).formData c d w) true
        let y := (y.formEnd c 0x0B w).eventB8 (262 + c)
        match q.abort with
        | some a => y.abortDone .capture c 0x0D a.seq
        | none => y
      else
        match q.abort with
        | some a =>
          let y := x.formGap c
          let y := if full then y else y.formTrigger c
          ((y.formEnd c 0x0C w).eventB8 (262 + c)).abortDone .capture c 0x0C a.seq
        | none =>
          if full then
            let y := miss x
            let y := if d.mode = 2 && due then y.setCap c { y.cap c with env := [], envPrev := none } else y
            count y false
          else count ((record x).formData c d w) true

/-! ## Writing records (R307, R320, R321, R323) -/

/-- Count the bytes that reached the spill target (R335). -/
def Half.spilled (x : Half) (c n : Nat) : Half :=
  x.setReg64 (Reg.capSpillLo c) (Reg.capSpillHi c) (x.reg64 (Reg.capSpillLo c) (Reg.capSpillHi c) + n)

/-- RECORD_DRAIN (R307, R321, R323): the oldest record of the staging buffer reaches its region or spill region. -/
def execRecordDrain (h : HalfId) (c : BitVec 2) (s : State) : Host.Outcome State Fault Refusal :=
  .next (s.upd h (fun x =>
    let q := x.cap c.toNat
    match q.staged with
    | ⟨.region base off stripe, bs, false⟩ :: rest => (x.setCap c.toNat { q with staged := rest }).wrRegion base stripe off bs
    | ⟨.spill base off stripe, bs, false⟩ :: rest =>
      ((x.setCap c.toNat { q with staged := rest }).wrRegion base stripe off bs).spilled c.toNat bs.length
    | _ => x))

/-- The outputs of the record's cycle still await their signature comparison (R33, R324). -/
def Half.recAwaits (x : Half) (bs : Bytes) : Bool :=
  match x.asr.sigs with
  | some (n, _) => x.run.mode == .paired && decide (n.toNat ≤ bn bs 8 8) && bn bs 0 1 != 0x0A
  | none => false

/-- The oldest staged record, if it is one of the host ring, is written (R320, R324): `send` says that this half writes
it; one that lies before HEAD at a restore is not written again (R325). -/
def Half.hostRecord (x : Half) (c : Nat) (send : Bool) : Half :=
  let q := x.cap c
  match q.staged with
  | ⟨.host base off size, bs, false⟩ :: rest =>
    let n := if bn bs 0 1 = 0x0A then size - off else bs.length
    let y := (x.setCap c { q with staged := rest, hsTail := (off + n) % size, hsSkip := q.hsSkip - n }).spilled c bs.length
    if send && decide (q.hsSkip = 0) then y.emit (.hostWrite (BitVec.ofNat 64 (base + off)) bs) else y
  | _ => x

/-- HOST_STREAM_WRITE (R320, R321, R323, R324): the oldest staged record leaves for the host ring while that has room and
the link is up; a write that fails is tried again later. -/
def execHostStreamWrite (h : HalfId) (c : BitVec 2) (ok : Bool) (s : State) : Host.Outcome State Fault Refusal :=
  let x := s.half h
  .next (
    if !ok || x.pci.down || !x.busMaster || x.hsFull c.toNat then s
    else if (match (x.cap c.toNat).staged with
        | r :: _ => x.recAwaits r.bytes
        | [] => false) then s
    else if x.run.mode = .paired then
      if x.run.lead then (s.upd h (fun x => x.hostRecord c.toNat true)).upd (otherHalf h) (fun x => x.hostRecord c.toNat false)
      else s
    else s.upd h (fun x => x.hostRecord c.toNat true))

/-- CAP_HS_HEAD_WRITE (R320, R335): host software frees space of the ring, of both copies in PAIRED (R324); bits [2:0] are
reserved. -/
def execCapHsHeadWrite (h : HalfId) (m : Master) (c : BitVec 2) (v : Word) (s : State) : Host.Outcome State Fault Refusal :=
  .next (s.byMaster h m (fun s =>
    let f (x : Half) : Half := x.setReg (Reg.capHsHead c.toNat) (v &&& 0xFFFFFFF8#32)
    if (s.half h).run.mode = .paired then s.both f else s.upd h f))

/-! ## Playback (R326 to R329, R604) -/

/-- The record size of a pattern (R327). -/
def PlyDesc.recSize (d : PlyDesc) : Nat := 8 * ((d.width + 63) / 64) + (if d.held then 8 else 0)

/-- Clear the bits of a vector that lie in 64-bit word `i`. -/
def dropWord (v i : Nat) : Nat := v - natField v (64 * i) 64 * 2 ^ (64 * i)

/-- Read record `v` of a pattern (R327, R604): an uncorrectable word delivers 0 and is a half fault; a replay may find that it
reads one again whose error began the recovery. -/
def Half.plyRecord (x : Half) (d : PlyDesc) (v : Nat) : (Nat × Nat) × Half :=
  let a := hbmBase + d.base + v * d.recSize
  let va := if d.held then a + 8 else a
  let n := (d.width + 63) / 64
  let bad := (wordsOf a d.recSize).filter (fun w => x.eccAt w == some true)
  let y := bad.foldl (fun y w => (y.memUncorr w).halfFault) (x.correct a d.recSize)
  let y := if bad.isEmpty || !y.asr.active then y
    else if y.run.state == .recovering then
      { y with asr := { y.asr with patAgain := y.asr.patAgain || bad.any (fun w => y.asr.patBad.contains w) } }
    else { y with asr := { y.asr with patBad := bad ++ y.asr.patBad } }
  let bits := (List.range n).foldl (fun b i => if bad.contains (va + 8 * i) then dropWord b i else b) (x.rdMem va (8 * n))
  let hold := if d.held && !bad.contains a then max 1 (x.rdMem a 4) else 1
  ((hold, bits), y)

/-- Prefetch one record into the buffer of engine `p` (R328): 32 KiB of records. -/
def Half.prefetch (x : Half) (p : Nat) (r : (Nat × Nat)) : Half :=
  let q := x.ply p
  match q.desc with
  | some d =>
    let wrap := q.nextV + 1 == d.vectors
    x.setPly p { q with
      buf := q.buf ++ [r], nextV := if wrap then 0 else q.nextV + 1, nextP := if wrap then q.nextP + 1 else q.nextP }
  | none => x

/-- PLAYBACK_PREFETCH (R327, R328, R329, R604). In PAIRED the lead half reads the pattern for both. -/
def execPlaybackPrefetch (h : HalfId) (p : BitVec 2) (s : State) : Host.Outcome State Fault Refusal :=
  let x := s.half h
  let q := x.ply p.toNat
  .next (match q.desc with
    | some d =>
      if q.st.armed && decide ((q.buf.length + 1) * d.recSize ≤ 32768) && (d.loops == 0 || decide (q.nextP < d.loops)) &&
          (x.run.mode != .paired || x.run.lead) then
        let (r, y) := x.plyRecord d q.nextV
        let s1 := s.setHalf h (y.prefetch p.toNat r)
        if x.run.mode = .paired then s1.upd (otherHalf h) (fun z => z.prefetch p.toNat r) else s1
      else s
    | none => s)

/-- The vector that is due is the last of the last pass (R295). -/
def PlyEng.lastDue (q : PlyEng) (d : PlyDesc) : Bool := q.v + 1 == d.vectors && d.loops != 0 && q.pass + 1 == d.loops

/-- The stall condition "a playback vector not present" at a boundary of domain `dom` (R31, R328): an abort needs no vector,
unless the commit of the one that is due may be the commit point (R295). -/
def Half.plyStall (x : Half) (dom : Nat) : Bool :=
  (List.range 4).any (fun p =>
    let q := x.ply p
    match q.desc with
    | some d => q.st.armed && d.domain == dom && q.buf.isEmpty && (q.abort.isNone || q.lastDue d)
    | none => false)

/-- Commit a vector to its bits (R326, R328). -/
def Half.commitBits (x : Half) (bits : List Nat) (v : Nat) : Half :=
  { x with ar := { x.ar with
    din := (bits.zipIdx).foldl (fun m b => sput m b.1 false (natBit v b.2)) x.ar.din } }

/-- One playback engine at the input commit of a boundary of its domain (R293, R295, R328). -/
def Half.plyCommit (x : Half) (p : Nat) : Half :=
  let q := x.ply p
  match q.desc with
  | none => x
  | some d =>
    if !q.st.armed then x
    else
      match q.buf, q.abort with
      | [], some a =>
        let y := ((x.setPly p { q with st := .done, abort := none }).engDone .playback p 0x0C).abortDone .playback p 0x0C a.seq
        { y with eng := { y.eng with evB8 := y.eng.evB8 ++ [266 + p] } }
      | [], none => x
      | (hold, v) :: rest, ab =>
        let left := if q.hold = 0 then hold else q.hold
        let wrap := left == 1 && q.v + 1 == d.vectors
        let ends := left == 1 && q.lastDue d
        if ab.isSome && !ends then
          let y := ((x.setPly p { q with st := .done, abort := none }).engDone .playback p 0x0C).abortDone .playback p 0x0C
            (ab.any (fun a => a.seq))
          { y with eng := { y.eng with evB8 := y.eng.evB8 ++ [266 + p] } }
        else
          let y := (x.commitBits d.bits v).setPly p { q with
            st := if ends then .done else .active, hold := left - 1, buf := if left = 1 then rest else q.buf
            v := if wrap then 0 else if left = 1 then q.v + 1 else q.v
            pass := if wrap then q.pass + 1 else q.pass, count := q.count + 1, started := true, abort := none }
          if ends then
            let z := y.engDone .playback p 0x0B
            let z := { z with eng := { z.eng with evB8 := z.eng.evB8 ++ [266 + p] } }
            match ab with
            | some a => z.abortDone .playback p 0x0D a.seq
            | none => z
          else y

/-! ## Abort (R295, R296) -/

/-- An abort request reaches an engine (R295): PENDING ends at once, IDLE and DONE refuse, another waits for the
engine's next evaluation or commit. -/
def Half.abortAsk (x : Half) (k : EngKind) (e : Nat) (seq : Bool) : Half :=
  if !(x.engSt k e).armed then x.abortDone k e 0x01 seq
  else if x.engSt k e = .pending then
    let y := match k with
      | .trigger => x.setTrg e { x.trg e with st := .done }
      | .capture => x.setCap e { x.cap e with st := .done }
      | .playback => x.setPly e { x.ply e with st := .done }
    let ev := match k with
      | .trigger => []
      | .capture => [262 + e]
      | .playback => [266 + e]
    let z := (y.engDone k e 0x0C).abortDone k e 0x0C seq
    { z with eng := { z.eng with evB8 := z.eng.evB8 ++ ev } }
  else
    match k with
    | .trigger => x.setTrg e { x.trg e with abort := some ⟨seq⟩ }
    | .capture => x.setCap e { x.cap e with abort := some ⟨seq⟩ }
    | .playback => x.setPly e { x.ply e with abort := some ⟨seq⟩ }

/-- A fresh run start or a load aborts every armed engine, with no event; an abort that was waiting is done with it (R296).
`t` is the PTP time that records show. -/
def Half.abortAll (x : Half) (t : PtpTime) : Half :=
  let w : RecAt := ⟨x.run.cyc, x.run.vt, t⟩
  let fin (k : EngKind) (e : Nat) (ab : Option AbortReq) (y : Half) : Half := match ab with
    | some a => y.abortDone k e 0x0C a.seq
    | none => y
  let x := (List.range 4).foldl (fun y e =>
    let g := y.trg e
    if g.st.armed then fin .trigger e g.abort ((y.setTrg e { g with st := .done, abort := none }).engDone .trigger e 0x0C) else y) x
  let x := (List.range 4).foldl (fun y c =>
    let q := y.cap c
    if q.st = .pending then (y.setCap c { q with st := .done, abort := none }).engDone .capture c 0x0C
    else if q.st.armed then fin .capture c q.abort ((y.formGap c).formEnd c 0x0C w)
    else y) x
  (List.range 4).foldl (fun y p =>
    let q := y.ply p
    if q.st.armed then fin .playback p q.abort ((y.setPly p { q with st := .done, abort := none }).engDone .playback p 0x0C)
    else y) x

end Sys2Proof.Machine
end

