-- ==== Sys2Proof/Machine/Txe.lean ====
section
/-!
DEFINITION. Machine/Txe.lean: the transaction engine: ports, host queues, matching store, handlers, completion
(R251 to R289).
-/

namespace Sys2Proof.Machine

/-! ## Ports, transactions, queues -/

/-- Design message port `p`. -/
def Half.tport (x : Half) (p : Nat) : Port := sget x.txe.port p Port.zero
/-- Replace a port. -/
def Half.setTport (x : Half) (p : Nat) (v : Port) : Half :=
  { x with txe := { x.txe with port := sput x.txe.port p Port.zero v } }
/-- The transaction with a TID. -/
def Half.txn (x : Half) (tid : Nat) : Option Txn := sget x.txe.txn tid none
/-- Replace a transaction. -/
def Half.setTxn (x : Half) (tid : Nat) (t : Option Txn) : Half :=
  { x with txe := { x.txe with txn := sput x.txe.txn tid none t } }

/-- Word width of a port in bytes (R253). -/
def Half.pw (x : Half) (p : Nat) : Nat := 2 ^ x.rfld (Reg.txeDpCfg p) 23 2
/-- Key of the port's first input bit, and of its first output bit. -/
def Half.pin (x : Half) (p : Nat) : Nat := x.rfld (Reg.txeDpCfg p) 25 6 * 128 + x.rfld (Reg.txeDpCfg p) 16 7
def Half.pout (x : Half) (p : Nat) : Nat := x.rfld (Reg.txeDpCfg p) 25 6 * 128 + x.rfld (Reg.txeDpCfg p) 9 7
/-- MAX_MSG of a port. -/
def Half.pmax (x : Half) (p : Nat) : Nat := x.rfld (Reg.txeDpMsg p) 0 13

/-- The enabled ports bound to a domain. -/
def Half.domPorts (x : Half) (dom : Nat) : List Nat :=
  (List.range 256).filter (fun p => x.rbit (Reg.txeDpCfg p) 31 && x.rfld (Reg.txeDpCfg p) 0 8 == dom)

/-- Kind and number of an endpoint code (R252): 1 HOST, 2 DPORT, 3 LINK. -/
def epKind (c : Nat) : Nat := c / 16384
def epNum (c : Nat) : Nat := c % 16384
/-- The endpoint code of a design port. -/
def dport (p : Nat) : Nat := 0x8000 + p

/-- The sources whose messages a transaction takes, in order (R265, R266). -/
def Tmpl.sources (t : Tmpl) : List Nat :=
  match t.handler with
  | 2 => if epKind t.src = 1 then [] else [t.src]
  | 3 => [t.src]
  | 5 => t.list.map dport
  | 6 => if t.src = 0 then [] else [t.src]
  | _ => []

/-- The ports or channels it sends to. -/
def Tmpl.dests (t : Tmpl) : List Nat :=
  match t.handler with
  | 1 => [t.dst]
  | 2 => if epKind t.src = 1 then [t.dst] else []
  | 4 => t.list.map dport
  | _ => []

/-- It requires an H operand, which is a payload if it sends and a host buffer if it receives. -/
def Tmpl.needsH (t : Tmpl) : Bool := t.handler != 6
def Tmpl.sends (t : Tmpl) : Bool := !t.dests.isEmpty

/-- The first design port named in SRC, DST and LIST order (R270). -/
def Tmpl.firstPort (t : Tmpl) : Option Nat :=
  (([t.src, t.dst].filter (fun c => epKind c == 2)).map epNum ++ t.list).head?

/-- The bytes of the next message to its `k`-th destination (R266): MAX_MSG of a link channel is 256. -/
def Half.nextLen (x : Half) (t : Txn) (k : Nat) : Nat :=
  let n := match t.h with
    | some o => o.payload.length
    | none => 0
  match t.t.handler with
  | 2 => min (x.pmax (epNum t.t.dst)) (n - t.sent)
  | 4 => 8 * (t.t.lens[k]?).getD 0
  | _ => n

/-- The CQ that receives the completion of a transaction (R267). -/
def Txn.cq (t : Txn) : Option Nat :=
  match t.h with
  | some o => some o.sq
  | none => if t.t.cq = 0xFF then none else some t.t.cq

/-- It has sent all its payload. -/
def Txn.allSent (t : Txn) : Bool :=
  match t.h with
  | some o => decide (o.payload.length ≤ t.sent)
  | none => true

/-- A message of `n` bytes as it lies in a port's buffer: whole words (R257). -/
def padded (n w : Nat) : Nat := (n + w - 1) / w * w

/-- Bytes held in a port's inbound buffer. -/
def Half.inUsed (x : Half) (p : Nat) : Nat :=
  (x.tport p).inq.foldl (fun a m => a + (padded m.data.length (x.pw p) - m.pos)) 0

/-- Bytes of the inbound buffer of port `p` that a transaction's next messages to it need together (R263). -/
def Half.inNeeds (x : Half) (t : Txn) (p : Nat) : Nat :=
  (t.t.dests.zipIdx).foldl (fun a d => if d.1 = dport p then a + padded (x.nextLen t d.2) (x.pw p) else a) 0

/-- Bytes of the inbound buffer of port `p` reserved by transactions that hold credit and are not dispatched (R263). -/
def Half.inReserved (x : Half) (p : Nat) : Nat :=
  x.txe.txn.foldl (fun a e =>
    match e.2 with
    | some t => if t.c then a + x.inNeeds t p else a
    | none => a) 0

/-- Bytes held in a port's outbound buffer, the messages already claimed by transactions included (R255). -/
def Half.outUsed (x : Half) (p : Nat) : Nat :=
  (x.tport p).part.length + (x.tport p).out.foldl (fun a m => a + m.data.length) 0 +
  x.txe.txn.foldl (fun a e =>
    match e.2 with
    | some t => (t.t.sources.zip t.d).foldl (fun a d => if d.1 = dport p then a + d.2.data.length else a) a
    | none => a) 0

/-- SIZE, HEAD and TAIL of a CQ, and the entries that may be written (R261): one place stays free. -/
def Half.cqSize (x : Half) (q : Nat) : Nat := x.rfld (Reg.txeCqCfg q) 0 16
def Half.cqTail (x : Half) (q : Nat) : Nat := x.rfld (Reg.txeCqStat q) 16 16
def Half.cqOn (x : Half) (q : Nat) : Bool := x.rbit (Reg.txeCqCfg q) 31
def Half.cqRoom (x : Half) (q : Nat) : Nat :=
  let n := x.cqSize q
  if x.cqOn q then (sget x.txe.cqHead q 0 + 2 * n - x.cqTail q - 1) % max 1 n else 0

/-- CQ entries reserved by transactions. -/
def Half.cqReserved (x : Half) (q : Nat) : Nat :=
  (x.txe.txn.filter (fun e =>
    match e.2 with
    | some t => t.cq == some q && (t.c || t.running || t.outcome.isSome)
    | none => false)).length

/-- DATA packets of 256 bytes that the replay buffer of 64 KiB still takes (R146). -/
def Bundle.replayRoom (u : Bundle) : Nat :=
  (65536 - u.replay.foldl (fun n p => n + 8 + p.payload.length) 0) / 264

/-- Packets that may be sent on channel `c` of bundle `b`, reservations off (R146, R276). -/
def Half.linkRoom (x : Half) (b c : Nat) : Nat :=
  let u := x.bun b
  let g := (sget u.granted c 0 + 2 ^ 32 - sget u.sent c 0 % 2 ^ 32) % 2 ^ 32
  let held := (x.txe.txn.filter (fun e =>
    match e.2 with
    | some t => t.c && t.t.dst == 0xC000 + b * 256 + c
    | none => false)).length
  let all := (x.txe.txn.filter (fun e => e.2.any (fun t => t.c && t.t.dst / 256 == 0xC0 + b))).length
  let cfg := x.reg (Reg.txeLch (c - 1))
  if u.live && wbit cfg 31 && fld cfg 16 4 == b && decide (g < 2 ^ 31) then min (g - held) (u.replayRoom - all) else 0

/-- The half accepts work (R272); not from step 1 of a power failure on (R548). -/
def Half.accepting (x : Half) : Bool :=
  x.run.loaded.isSome && x.sys.fail.isNone && x.run.state != RunState.recovering && (!x.asr.active || x.asr.st != AsrState.starting)

/-- TIDs 256 to 4,095 that are free (R251). -/
def Half.freeTids (x : Half) : List Nat :=
  (List.range 3840).filterMap (fun i =>
    if (x.txn (256 + i)).isNone && !x.txe.staged.any (fun e => e.tid == 256 + i) then some (256 + i) else none)

/-- Transactions in flight (R284), and those created or fed by queue pair `q` (R287). -/
def Half.inFlight (x : Half) : Nat :=
  (x.txe.txn.filter (fun e =>
    match e.2 with
    | some t => !t.retired
    | none => false)).length
def Half.fedBy (x : Half) (q : Nat) : Nat :=
  (x.txe.txn.filter (fun e =>
    match e.2 with
    | some t => t.maker == some q || (t.h.map (fun o => o.sq)) == some q || t.hq.any (fun o => o.sq == q)
    | none => false)).length

/-! ## Matching (R263 to R265, R269) -/

/-- The next message of an endpoint code, and the half without it. -/
def Half.takeMsg (x : Half) (c : Nat) : Option (Msg × Half) :=
  if epKind c = 2 then
    match (x.tport (epNum c)).out with
    | m :: l => some (m, x.setTport (epNum c) { x.tport (epNum c) with out := l })
    | [] => none
  else
    match sget x.txe.lchRx (c % 4096) [] with
    | m :: l => some (m, { x with txe := { x.txe with lchRx := sput x.txe.lchRx (c % 4096) [] l } })
    | [] => none

/-- Put a message back at the head of its source's queue (R271). -/
def Half.giveBack (x : Half) (c : Nat) (m : Msg) : Half :=
  if epKind c = 2 then x.setTport (epNum c) { x.tport (epNum c) with out := m :: (x.tport (epNum c)).out }
  else { x with txe := { x.txe with lchRx := sput x.txe.lchRx (c % 4096) [] (m :: sget x.txe.lchRx (c % 4096) []) } }

/-- A transaction that still works. -/
def Txn.open_ (t : Txn) : Bool := t.outcome.isNone && !t.retired

/-- The source whose message a transaction waits for next. -/
def Txn.wants (t : Txn) : Option Nat := if t.open_ then t.t.sources[t.d.length]? else none

/-- The oldest transaction that waits for a message of source `c`: by creation, then by TID (R265). -/
def Half.oldestFor (x : Half) (c : Nat) : Option Nat :=
  (x.txe.txn.foldl (fun (a : Option (Nat × Nat)) e =>
    match e.2 with
    | some t =>
      if t.wants = some c then
        match a with
        | some (b, i) => if t.born < b then some (t.born, e.1) else some (b, i)
        | none => some (t.born, e.1)
      else a
    | none => a) none).map (fun p => p.2)

/-- Assign one message of each source that has one and is waited for. -/
def Half.assignStep (x : Half) : Half :=
  let srcs := x.txe.txn.filterMap (fun e => match e.2 with
    | some t => t.wants
    | none => none)
  srcs.foldl (fun y c =>
    match y.oldestFor c, y.takeMsg c with
    | some tid, some (m, z) =>
      match z.txn tid with
      | some t => z.setTxn tid (some { t with d := t.d ++ [m] })
      | none => y
    | _, _ => y) x

/-- The operands queued on a transaction are still to be taken: it has not been aborted (R268). -/
def Txn.keepsQueue (t : Txn) : Bool := !t.retired && (t.outcome.all (fun o => o.1 != 0x0C))

/-- The acceptance order of a port (R269): no operand accepted earlier still has to enter it. -/
def Half.portTurn (x : Half) (tid : Nat) (t : Txn) (c : Nat) : Bool :=
  match t.h with
  | some ⟨_, _, _, _, _, _, some n⟩ =>
    x.txe.txn.all (fun e =>
      match e.2 with
      | some u =>
        !(u.t.dests.contains c &&
          ((e.1 != tid && u.open_ && !u.allSent && (match u.h with
              | some ⟨_, _, _, _, _, _, some m⟩ => decide (m < n)
              | _ => false)) ||
            (u.keepsQueue && u.hq.any (fun o => match o.seq with
              | some m => decide (m < n)
              | none => false))))
      | none => true)
  | _ => true

/-- Every credit that a transaction needs can be reserved (R263). -/
def Half.creditOk (x : Half) (tid : Nat) (t : Txn) : Bool :=
  (match t.cq with
    | some q => t.running || decide (x.cqReserved q < x.cqRoom q)
    | none => true) &&
  (t.t.dests.zipIdx).all (fun d =>
    x.portTurn tid t d.1 &&
    (if epKind d.1 = 2 then
      decide (x.inUsed (epNum d.1) + x.inReserved (epNum d.1) + x.inNeeds t (epNum d.1) ≤
        x.rfld (Reg.txeDpBuf (epNum d.1)) 0 12 * 256)
    else decide (0 < x.linkRoom (d.1 / 256 % 16) (d.1 % 256))))

/-- Every slot but C that the handler requires is filled (R263, R266). -/
def Txn.filled (t : Txn) : Bool :=
  t.k && (match t.t.handler, t.h with
    | 6, _ => true
    | _, some o => o.seq.isSome
    | _, none => false) && t.d.length == t.t.sources.length

/-- A transaction whose slots are filled reserves its credit and becomes ready (R263, R264). -/
def Half.readyStep (x : Half) (tid : Nat) : Half :=
  match x.txn tid with
  | some t =>
    if t.open_ && !t.ready && t.filled && !(t.running && t.t.sends && t.allSent) && x.creditOk tid t then
      let y := x.setTxn tid (some { t with c := true, ready := true })
      { y with txe := { y.txe with readyQ := y.txe.readyQ ++ [tid] } }
    else x
  | none => x

/-- Assign messages and credit until nothing more can be assigned. -/
def Half.settleTxe (x : Half) : Half :=
  let y := Nat.repeat Half.assignStep 9 x
  (y.txe.txn.map (fun e => e.1)).foldl Half.readyStep y

/-! ## Outcomes -/

/-- A transaction reaches a final outcome: status and cycle. -/
def Half.endTxn (x : Half) (tid : Nat) (t : Txn) (status : Nat) (cyc : DWord) : Half :=
  let y := x.setTxn tid (some { t with
    outcome := some (status, cyc), c := t.c && status != 0x0C && status != 0x21, ready := false })
  { y with txe := { y.txe with
    doneQ := y.txe.doneQ ++ [tid], readyQ := y.txe.readyQ.filter (fun i => i != tid) } }

/-- A transaction gives up its operands (R271): messages go back to the head of their source, its own leave the
inbound buffers. -/
def Half.giveUp (x : Half) (tid : Nat) (t : Txn) : Half :=
  let y := ((t.t.sources.zip t.d).reverse).foldl (fun y p => y.giveBack p.1 p.2) x
  let z := (t.t.dests.filter (fun c => epKind c == 2)).foldl (fun y c =>
    let p := epNum c
    y.setTport p { y.tport p with inq := (y.tport p).inq.filter (fun m => m.tid != tid) }) y
  z.setTxn tid (some { t with d := [], c := false, ready := false, h := t.h.map (fun o => { o with payload := [] }) })

/-- A NOTIFY that has run and whose entry is not yet issued: its commit point is still to come (R271). -/
def Txn.unposted (t : Txn) : Bool :=
  t.t.handler == 6 && t.commit.isNone && t.outcome.any (fun o => o.1 == 0x0B || o.1 == 0x22)

/-- Abort a transaction (R271): the code for the abort. -/
def Half.abortTxn (x : Half) (tid : Nat) : Nat × Half :=
  match x.txn tid with
  | none => (0x25, x)
  | some t =>
    if t.retired then (0x25, x)
    else if (t.outcome.isSome && !t.unposted) || t.commit.isSome then (0x0D, x)
    else
      let y := x.giveUp tid t
      let y := { y with txe := { y.txe with doneQ := y.txe.doneQ.filter (fun i => i != tid) } }
      match y.txn tid with
      | some t => (0x0C, y.endTxn tid t 0x0C x.run.cyc)
      | none => (0x0C, y)

/-- A time-out expires (R270): it has effect only before the transaction is ready. -/
def Half.expireTxn (x : Half) (tid : Nat) : Half :=
  match x.txn tid with
  | some t =>
    if t.open_ && !t.ready && !t.running then
      let y := x.giveUp tid t
      match y.txn tid with
      | some t => y.endTxn tid t 0x21 x.run.cyc
      | none => y
    else x
  | none => x

/-- A time-out in nanoseconds has run out (R270): it takes effect at the boundary of the transaction's first port, with those
that have none at the next one, on what is not ready by then. -/
def Half.expireSoon (x : Half) (tid : Nat) : Half :=
  match x.txn tid with
  | some t => if t.open_ && !t.ready && !t.running then x.setTxn tid (some { t with expiring := true }) else x
  | none => x

/-! ## Host memory -/

/-- A host-memory write of the engine: held until the signature comparison of its cycle where one is awaited (R33,
R274). -/
def Half.outWrite (x : Half) (a : Nat) (bs : Bytes) (vec : Option Nat) : Half :=
  if x.run.mode = .paired && x.asr.sigs.isSome then
    { x with txe := { x.txe with heldOut := x.txe.heldOut ++ [(x.run.cyc, a, bs, vec)] } }
  else x.hostWrite a bs vec

/-- Data of a transaction for its host buffer; a replayed one keeps it until its entry is written (R359). -/
def Half.outData (x : Half) (tid : Nat) (a : Nat) (bs : Bytes) : Half :=
  if bs.isEmpty then x
  else if x.replaying then
    match x.txn tid with
    | some t => x.setTxn tid (some { t with kept := t.kept ++ [(a, bs)] })
    | none => x
  else x.outWrite a bs none

/-- `a` is later than `b`, as 48-bit sequence numbers (R354). -/
def later48 (a b : Nat) : Bool :=
  let d := (a + 2 ^ 48 - b % 2 ^ 48) % 2 ^ 48
  decide (1 ≤ d) && decide (d < 2 ^ 47)

/-- Write an entry to CQ `q`, PHASE last, with the CQ's vector behind it (R261). With assured operation active an entry
at or below the horizon is suppressed in replay (R359). -/
def Half.cqWrite (x : Half) (q : Nat) (e : CqEntry) (kept : List (Nat × Bytes)) : Half :=
  let tail := x.cqTail q
  let phase := x.rfld (Reg.txeCqStat q) 0 1
  let head := x.rfld (Reg.txeSqStat (if e.sq < 64 then e.sq else q)) 16 16
  let base := x.rfld (Reg.txeCqBaseLo q) 12 20 * 4096 + (x.reg (Reg.txeCqBaseHi q)).toNat * 2 ^ 32
  let bs := leBytes 2 e.tid ++ leBytes 1 e.status ++ leBytes 1 phase ++ leBytes 2 head ++ leBytes 2 e.sq ++
    leBytes 4 e.ctag.toNat ++ leBytes 4 e.len ++ leBytes 6 e.seq ++ leBytes 2 e.port ++ leBytes 8 e.cyc.toNat
  let wrap := tail + 1 == x.cqSize q
  let n := (sget x.asr.cseq q 0 + 1) % 2 ^ 48
  let y := x.setReg (Reg.txeCqStat q) (BitVec.ofNat 32 ((if wrap then 0 else tail + 1) * 65536 + (if wrap then 1 - phase else phase)))
  let y := { y with asr := { y.asr with cseq := sput y.asr.cseq q 0 n } }
  if x.replaying && !later48 n (x.reg64 (Reg.asrCqHznLo q) (Reg.asrCqHznHi q)) then y
  else
    let y := kept.foldl (fun y w => y.outWrite w.1 w.2 none) y
    y.outWrite (x.qRing q (base + tail * 32)) bs (if !x.qBound q && x.rbit (Reg.txeCqCfg q) 30 then some (x.rfld (Reg.txeCqCfg q) 16 8) else none)

/-- The entry of a transaction's completion. -/
def Txn.entry (t : Txn) (tid : Nat) (status : Nat) (cyc : DWord) : CqEntry :=
  { tid := tid, status := status, sq := (match t.h with
      | some o => o.sq
      | none => 0xFFFF)
    ctag := (match t.h with
      | some o => o.ctag
      | none => t.ctag)
    len := if t.t.handler = 6 then t.head else t.wrote
    seq := if t.t.sends then (match t.h with
      | some o => o.seq.getD 0
      | none => 0) else t.oseq1
    port := ((t.t.dests ++ t.t.sources).head?).getD 0
    cyc := cyc }

/-- K slots that wait for a TID are filled (R263). -/
def Half.fillK (x : Half) (tid : Nat) : Half :=
  { x with txe := { x.txe with txn := x.txe.txn.map (fun e =>
    match e.2 with
    | some t => if t.dep = some tid then (e.1, some { t with k := true }) else e
    | none => e) } }

/-- A new transaction of a template, with no operand. -/
def Txn.new (t : Tmpl) (born : Nat) : Txn :=
  { t := t, maker := none, ctag := 0#32, born := born, h := none, hq := [], d := [], c := false, k := true, dep := none,
    ready := false, running := false, commit := none, age := 0, expiring := false, sent := 0, msgs := 0, wrote := 0,
    cut := false, oseq1 := 0, head := 0, kept := [], deliv := [], outcome := none, pseq := none, retired := false, late := false }

/-- What follows the report of an outcome (R268): a standing transaction reopens, or stays retired after an abort; another
TID becomes free. -/
def Half.closeTxn (x : Half) (tid : Nat) (t : Txn) (status : Nat) : Half :=
  let y := { x with txe := { x.txe with doneQ := x.txe.doneQ.filter (fun i => i != tid) } }
  let z :=
    if tid < 256 then
      if status = 0x0C then y.setTxn tid (some { Txn.new t.t t.born with retired := true })
      else match t.hq with
        | o :: l => y.setTxn tid (some { Txn.new t.t t.born with h := some o, hq := l, late := x.txe.inB })
        | [] => y.setTxn tid (some { Txn.new t.t t.born with late := x.txe.inB })
    else y.setTxn tid none
  z.fillK tid

/-- Report the outcome of a transaction (R261, R262, R267): nothing while its CQ has no room, or while an earlier outcome
for the same CQ is still to be reported. -/
def Half.completeTxn (x : Half) (tid : Nat) : Half :=
  match x.txn tid with
  | some t =>
    match t.outcome with
    | some (status, cyc) =>
      let cyc := if t.unposted then x.run.cyc else cyc
      let ring (y : Half) : Half := if t.unposted && t.t.seqEvent && !y.replaying then y.event 276 else y
      let first := t.cq.all (fun q => x.txe.lateCq.all (fun e => e.1 != q)) && (x.txe.doneQ.takeWhile (fun i => i != tid)).all (fun i =>
        match x.txn i with
        | some u => u.cq != t.cq || t.cq.isNone
        | none => true)
      match t.cq with
      | some q =>
        if !first then x
        else if !x.cqOn q then ring ((t.kept.foldl (fun y w => y.outWrite w.1 w.2 none) x).closeTxn tid t status)
        else if x.cqRoom q = 0 then x
        else
          let y := x.cqWrite q (t.entry tid status cyc) t.kept
          let n := sget y.asr.cseq q 0
          let y := y.trace 3 3 [BitVec.ofNat 32 (tid * 65536 + q * 256 + status)]
          let y := { y with asr := { y.asr with
            deliv := y.asr.deliv ++ t.deliv.map (fun (d : Nat × Nat) => (q, n, d.1, d.2)) } }
          ring (y.closeTxn tid t status)
      | none => ring ((t.kept.foldl (fun y w => y.outWrite w.1 w.2 none) x).closeTxn tid t status)
    | none => x
  | none => x

/-! ## Handlers (R266) -/

/-- Put a message into the inbound buffer of a port. -/
def Half.putIn (x : Half) (p tid : Nat) (bs : Bytes) (final : Bool) : Half :=
  x.setTport p { x.tport p with inq := (x.tport p).inq ++ [⟨tid, bs, final, 0⟩] }

/-- A received link message leaves its buffer: one further packet is granted and CREDIT is sent (R276). -/
def Half.grantOne (x : Half) (c : Nat) : Half :=
  if epKind c = 3 then
    let ch := c % 256
    let g := (sget x.txe.lchGr ch 0 + 1) % 2 ^ 32
    ({ x with txe := { x.txe with lchGr := sput x.txe.lchGr ch 0 g } }).sendPacket (c / 256 % 16) 4 ch 0 (leBytes 4 g)
  else x

/-- The status of a transaction that has completed: TRUNCATED where data was cut (R262, R266). -/
def doneStatus (cut : Bool) : Nat := if cut then 0x22 else 0x0B

/-- TXE_DATA, for transactions that pass the filter of `TRC_TXE_CFG` (R533). -/
def Half.traceData (x : Half) (tid : Nat) (t : Txn) (dir : Nat) (bs : Bytes) : Half :=
  let q := x.rfld Reg.trcTxeCfg 16 6
  let pass := x.rbit Reg.trcTxeCfg 30 || t.maker == some q || (match t.h with
      | some o => o.sq == q
      | none => false) || (t.t.dests ++ t.t.sources).contains (dport (x.rfld Reg.trcTxeCfg 0 8))
  if x.rbit Reg.trcTxeCfg 31 && pass then
    let b := bs.take 16 ++ zeros (16 - bs.length)
    x.trace 3 4 (BitVec.ofNat 32 (tid * 65536 + dir * 256 + min 16 bs.length) ::
      (List.range 4).map (fun i => BitVec.ofNat 32 (leNat ((b.drop (4 * i)).take 4))))
  else x

/-- MOVE and STREAM to a port, MOVE to a link channel, SCATTER: send the next message or messages. -/
def Half.sendNext (x : Half) (tid : Nat) (t : Txn) (o : HOp) : Half :=
  match t.t.handler with
  | 4 =>
    let r := (t.t.list.zip t.t.lens).zipIdx.foldl (fun (a : Nat × Half) p =>
      let n := 8 * p.1.2
      let m := (o.payload.drop a.1).take n
      (a.1 + n, (a.2.putIn p.1.1 tid m (decide (o.payload.length ≤ a.1 + n))).traceData tid t 0 m)) (0, x)
    r.2.setTxn tid (some { t with c := false, ready := false, running := true, sent := o.payload.length })
  | _ =>
    if epKind t.t.dst = 2 then
      let p := epNum t.t.dst
      let n := x.nextLen t 0
      let m := (o.payload.drop t.sent).take n
      let y := (x.putIn p tid m (decide (o.payload.length ≤ t.sent + n))).traceData tid t 0 m
      y.setTxn tid (some { t with c := false, ready := false, running := true, sent := t.sent + n })
    else if x.replaying then x.endTxn tid { t with sent := o.payload.length } 0x26 x.run.cyc
    else
      let b := t.t.dst / 256 % 16
      let ch := t.t.dst % 256
      let u := x.bun b
      let y := x.setBun b { u with
        replay := u.replay ++ [⟨ch, u.pseqTx, o.payload⟩], pseqTx := (u.pseqTx + 1) % 65536
        sent := sput u.sent ch 0 ((sget u.sent ch 0 + 1) % 2 ^ 32) }
      (y.sendPacket b 1 ch u.pseqTx o.payload).setTxn tid (some { t with
        c := false, ready := false, running := true, sent := o.payload.length, commit := some x.run.cyc
        pseq := some (u.pseqTx, b) })

/-- The OSEQ of the messages a transaction delivers from design ports (R357). -/
def delivered (srcs : List Nat) (ms : List Msg) : List (Nat × Nat) :=
  (srcs.zip ms).filterMap (fun p => if epKind p.1 = 2 then some (epNum p.1, p.2.oseq) else none)

/-- REPLY, GATHER and STREAM from a source: write the claimed messages into the host buffer. -/
def Half.recvNext (x : Half) (tid : Nat) (t : Txn) (o : HOp) : Half :=
  let stream := t.t.handler == 2
  let data := if stream then t.d.flatMap (fun m => leBytes 4 m.data.length ++ leBytes 4 m.oseq ++ m.data)
    else t.d.flatMap (fun m => m.data)
  let bs := data.take (o.len - t.wrote)
  let cut := t.cut || t.d.any (fun m => m.trunc) || decide (bs.length < data.length)
  let mx := if epKind t.t.src = 2 then x.pmax (epNum t.t.src) else 256
  let wrote := t.wrote + bs.length
  let ends := !stream || (t.t.count != 0 && t.msgs + 1 == t.t.count) || decide (o.len - wrote < mx + 8)
  let t' : Txn := { t with
    c := false, ready := false, running := true, d := [], wrote := wrote, msgs := t.msgs + 1, cut := cut
    commit := some (t.commit.getD x.run.cyc)
    oseq1 := if t.msgs = 0 then (match t.d with
      | m :: _ => m.oseq
      | [] => 0) else t.oseq1
    deliv := t.deliv ++ delivered t.t.sources t.d }
  let y := t.t.sources.foldl Half.grantOne 
    ((x.setTxn tid (some t')).outData tid (x.qAddr o.sq (o.addr + t.wrote)) bs)
  let y := t.d.foldl (fun (z : Half) m => z.traceData tid t 1 m.data) y
  match y.txn tid with
  | some t' => if ends then y.endTxn tid t' (doneStatus cut) (t'.commit.getD x.run.cyc) else y
  | none => y

/-- NOTIFY: an entry is posted, and event 276 raised when SEQ_EVENT = 1; its commit point is the issue of the entry, or this
dispatch where no CQ receives one (R271). -/
def Half.notify (x : Half) (tid : Nat) (t : Txn) : Half :=
  let m := (t.d.head?).getD ⟨[], false, 0, 0#64⟩
  let t' : Txn := { t with
    c := t.c, ready := false, running := true, d := if t.cq.isNone then [] else t.d, head := leNat (m.data.take 4)
    oseq1 := m.oseq, commit := if t.cq.isNone then some x.run.cyc else none, deliv := delivered t.t.sources t.d }
  let y := t.t.sources.foldl Half.grantOne (x.endTxn tid t' (doneStatus m.trunc) x.run.cyc)
  if t.cq.isNone && t.t.seqEvent && !x.replaying then y.event 276 else y

/-- The ready transaction that the dispatcher takes next (R264). -/
def Half.nextReady (x : Half) : Option Nat :=
  (x.txe.readyQ.foldl (fun (a : Option (Nat × Nat)) tid =>
    match x.txn tid with
    | some t => match a with
      | some (p, i) => if t.t.prio < p then some (t.t.prio, tid) else some (p, i)
      | none => some (t.t.prio, tid)
    | none => a) none).map (fun p => p.2)

/-- Dispatch one ready transaction to its handler (R264, R266). -/
def Half.dispatchOne (x : Half) : Half :=
  match x.nextReady with
  | none => x
  | some tid =>
    let y := { x with txe := { x.txe with readyQ := x.txe.readyQ.filter (fun i => i != tid) } }
    match y.txn tid with
    | none => y
    | some t =>
      let y := y.trace 3 2 [BitVec.ofNat 32 (tid * 65536 + t.t.prio * 16 + t.t.handler)]
      match t.t.handler, t.h with
      | 6, _ => y.notify tid t
      | _, some o => if t.t.sends then y.sendNext tid t o else y.recvNext tid t o
      | _, none => y

/-- With assured operation active the engine dispatches and reports at the boundaries, so that a replay repeats it (log
entry 6). -/
def Half.drainTxe (x : Half) : Half :=
  Nat.repeat (fun y =>
    let z := y.settleTxe.dispatchOne
    (z.txe.doneQ).foldl Half.completeTxn z) 64 x

/-! ## SQ entries (R258 to R260, R268) -/

/-- LEN, CTAG and the rest of an SQ entry. -/
def sqLen (e : Bytes) : Nat := bn e 0x0C 4
def sqInline (e : Bytes) : Bool := natBit (bn e 1 1) 0

/-- The fields of an SQ entry that hold whatever its OPC (R259). -/
def sqShape (e : Bytes) : Bool :=
  e.length == 64 && decide (bn e 1 1 < 4) && bn e 0x18 8 == 0 &&
  (!sqInline e || (decide (sqLen e ≤ 32) && bn e 0x10 8 == 0))

/-- The operand's length suits the template (R259, R262, R266). -/
def Half.operandOk (x : Half) (t : Tmpl) (e : Bytes) : Bool :=
  let n := sqLen e
  n == 0 ||
  (match t.handler with
   | 1 => if epKind t.dst = 2 then decide (n ≤ x.pmax (epNum t.dst)) else decide (n ≤ 256)
   | 2 => if epKind t.src = 1 then decide (n ≤ 65536) else !sqInline e
   | 4 => n == 8 * t.lens.foldl (fun a b => a + b) 0
   | 6 => false
   | _ => !sqInline e)

/-- The operand that an entry supplies. -/
def opOf (q : Nat) (e : Bytes) : HOp :=
  { sq := q, ctag := BitVec.ofNat 32 (bn e 8 4), len := sqLen e, addr := bn e 0x10 8
    inline := if sqInline e then some ((e.drop 0x20).take (sqLen e)) else none, payload := [], seq := none }

/-- The bytes of the operand must be read from host memory: a payload that is not inline. -/
def needsRead (t : Tmpl) (e : Bytes) : Bool := t.sends && !sqInline e && sqLen e != 0

/-- HEAD of an SQ passes an entry. -/
def Half.sqNext (x : Half) (q : Nat) : Half :=
  let h := x.rfld (Reg.txeSqStat q) 16 16
  let n := if h + 1 = x.rfld (Reg.txeSqCfg q) 0 16 then 0 else h + 1
  -- after an import the replayed entries may lie past the tail that the generation held (R358)
  let y := if x.replaying && x.rfld (Reg.txeSqTail q) 0 16 == h then x.setReg (Reg.txeSqTail q) (BitVec.ofNat 32 n) else x
  y.setRFld (Reg.txeSqStat q) 16 16 n

/-- Entries of an SQ fetched and not yet passed by HEAD. -/
def Half.sqStaged (x : Half) (q : Nat) : Nat := (x.txe.staged.filter (fun e => e.q == q)).length

/-- There is an entry to fetch: rung, enabled and not yet fetched. -/
def Half.sqHas (x : Half) (q : Nat) : Bool :=
  let n := x.rfld (Reg.txeSqCfg q) 0 16
  let used := (x.rfld (Reg.txeSqTail q) 0 16 + n - x.rfld (Reg.txeSqStat q) 16 16) % max 1 n
  x.rbit (Reg.txeSqCfg q) 31 && decide (x.sqStaged q < used) && (x.imgMode != .paired || x.run.lead)

/-- An entry that acts on no transaction is answered on the queue's own CQ (R262). -/
def Half.answer (x : Half) (q : Nat) (e : Bytes) (tid status : Nat) : Half :=
  if x.cqOn q then
    x.cqWrite q ⟨tid, status, q, BitVec.ofNat 32 (bn e 8 4), 0, 0, 0, x.run.cyc⟩ []
  else x

/-- An entry is REFUSED (R262, R286). -/
def Half.refuseEntry (x : Half) (q : Nat) (e : Bytes) : Half := (x.answer q e (bn e 4 2) 0x24).txeErr 2

/-- A transaction takes an operand: its H slot if that is empty, else its queue (R268). -/
def Txn.addH (t : Txn) (o : HOp) : Txn := if t.h.isNone then { t with h := some o } else { t with hq := t.hq ++ [o] }

/-- An acceptance sequence number has been given (R272, R377). -/
def Half.gaveSeq (x : Half) (n : Nat) : Half :=
  ({ x with txe := { x.txe with aseq := max n x.txe.aseq } }).setReg64 Reg.asrAseqLo Reg.asrAseqHi (max n x.txe.aseq)

/-- Accept the oldest operand of a transaction not yet accepted (R272): it takes the next acceptance sequence number. -/
def Half.acceptOp (x : Half) (tid : Nat) (payload : Bytes) : Half :=
  match x.txn tid with
  | none => x
  | some t =>
    let n := x.txe.aseq + 1
    let acc (o : HOp) : HOp := { o with payload := (o.inline.getD payload), seq := some n }
    let t' : Txn := match t.h with
      | some o => if o.seq.isNone then { t with h := some (acc o) }
        else { t with hq := markFirst (fun o => o.seq.isNone) acc t.hq }
      | none => t
    (x.setTxn tid (some t')).gaveSeq n

/-- The operand that an entry supplies as it is taken: accepted when nothing is left to read, or under the number that
its journal record gives (R272). -/
def Half.newOp (x : Half) (q : Nat) (e : Bytes) (t : Tmpl) (pay : Option (Bytes × Nat)) : HOp × Half :=
  let o := opOf q e
  match pay with
  | some (bs, n) => ({ o with payload := o.inline.getD bs, seq := some n }, x.gaveSeq n)
  | none =>
    if needsRead t e then (o, x)
    else ({ o with payload := o.inline.getD [], seq := some (x.txe.aseq + 1) }, x.gaveSeq (x.txe.aseq + 1))

/-- A CREATE is taken under a TID (R251, R259, R263): DEP names a free TID, or fills K later. -/
def Half.takeCreate (x : Half) (q : Nat) (e : Bytes) (t : Tmpl) (tid : Nat) (o : Option HOp) : Half :=
  let dep := bn e 6 2
  let waits := dep != 0xFFFF && (match x.txn dep with
    | some u => !u.retired
    | none => false)
  let n : Txn := { Txn.new t (x.txe.created + 1) with
    maker := some q, ctag := BitVec.ofNat 32 (bn e 8 4), k := !waits, dep := if waits then some dep else none
    h := o, late := x.txe.inB }
  let y := (({ x with txe := { x.txe with created := x.txe.created + 1 } }).setTxn tid (some n)).trace 3 1
    [BitVec.ofNat 32 (tid * 65536 + bn e 2 2 % 256)]
  if natBit (bn e 1 1) 1 && y.cqOn q then y.cqWrite q (n.entry tid 0x20 y.run.cyc) [] else y

/-- The template that a CREATE names, when the entry is well formed. -/
def Half.createTmpl (x : Half) (e : Bytes) : Option Tmpl :=
  if sqShape e && bn e 4 2 == 0 && (bn e 6 2 == 0xFFFF || decide (bn e 6 2 < 4096)) then
    match sget x.txe.tmpl (bn e 2 2) none with
    | some t => if x.operandOk t e then some t else none
    | none => none
  else none

/-- The transaction that a FILL feeds, when the entry is well formed (R259, R262, R268). -/
def Half.fillTxn (x : Half) (e : Bytes) : Option Txn :=
  if sqShape e && bn e 2 2 == 0 && bn e 6 2 == 0xFFFF && sqLen e != 0 && decide (bn e 4 2 < 256) then
    match x.txn (bn e 4 2) with
    | some t => if !t.retired && x.operandOk t.t e && (t.h.isNone || decide (t.hq.length < 16)) then some t else none
    | none => none
  else none

/-- Take an SQ entry into the engine's state: `tid` is the TID a CREATE is to have; `pay` the payload and acceptance number
of an operand whose record is accepted, none where the operand is still to be read. -/
def Half.takeEntry (x : Half) (q : Nat) (e : Bytes) (tid : Option Nat) (pay : Option (Bytes × Nat)) : Half :=
  let x := x.sqNext q
  match bn e 0 1 with
  | 1 =>
    match x.createTmpl e, tid with
    | some t, some i =>
      if sqLen e = 0 then x.takeCreate q e t i none
      else
        let (o, y) := x.newOp q e t pay
        y.takeCreate q e t i (some o)
    | _, _ => x.refuseEntry q e
  | 2 =>
    match x.fillTxn e with
    | some t =>
      let (o, y) := x.newOp q e t.t pay
      y.setTxn (bn e 4 2) (some (t.addH o))
    | none => x.refuseEntry q e
  | 3 =>
    if sqShape e && bn e 2 2 == 0 && bn e 6 2 == 0xFFFF then
      let (c, y) := x.abortTxn (bn e 4 2)
      y.answer q e (bn e 4 2) c
    else x.refuseEntry q e
  | _ => x.refuseEntry q e

/-! ## Doorbells (R260, R287) -/

/-- The condition under which a doorbell with tail `v` is refused with code `c` (R260, R360). -/
def Half.dbRefused (x : Half) (q v : Nat) (c : Nat) : Bool :=
  let n := x.rfld (Reg.txeSqCfg q) 0 16
  let prev := x.rfld (Reg.txeSqTail q) 0 16
  let add := (v + n - prev) % max 1 n
  let used := (prev + n - x.rfld (Reg.txeSqStat q) 16 16) % max 1 n
  match c with
  | 1 => !x.rbit Reg.txeCtrl 0 || !x.rbit (Reg.txeSqCfg q) 31
  | 2 => decide (n ≤ v) || decide (n ≤ used + add)
  | 3 => decide (x.rfld (Reg.txeQQuota q) 0 13 - x.fedBy q < add) || decide (x.freeTids.length < add)
  | 4 => !x.accepting && x.run.state != RunState.recovering
  | 5 => x.run.state == .recovering
  | 6 => x.imgMode == .paired && !x.run.lead
  | _ => false

/-- The code of a doorbell with tail `v`: the first that applies, in the order of the table (R260). -/
def Half.dbCode (x : Half) (q v : Nat) : Nat := ([1, 2, 3, 4, 5, 6].find? (fun c => x.dbRefused q v c)).getD 0

/-- Ring the doorbell of SQ `q` (R260). -/
def Half.ring (x : Half) (q v : Nat) : Half :=
  let c := x.dbCode q v
  let x := x.trace 3 0 [BitVec.ofNat 32 (q * 2 ^ 24 + c * 2 ^ 16 + v % 2 ^ 16)]
  let y := x.setRFld (Reg.txeSqStat q) 0 4 c
  if c = 0 then
    { (y.setReg (Reg.txeSqTail q) (BitVec.ofNat 32 v)) with txe := { y.txe with wake := sput y.txe.wake q none none } }
  else
    let z := y.setRBit (Reg.txeSqStat q) 4 true
    { z with txe := { z.txe with wake := sput z.txe.wake q none (some (c, v)) } }

/-- With WAKE_IRQ the CQ's vector is raised once the condition of the last refusal has cleared (R260). -/
def Half.wakeQueues (x : Half) : Half :=
  x.txe.wake.foldl (fun y e =>
    match e.2 with
    | some (c, v) =>
      if y.dbRefused e.1 v c then y
      else
        let z := { y with txe := { y.txe with wake := sput y.txe.wake e.1 none none } }
        if z.rbit (Reg.txeSqCfg e.1) 30 && !z.qBound e.1 then z.msix (z.rfld (Reg.txeCqCfg e.1) 16 8) else z
    | none => y) x

/-- Everything that follows a change of the engine's state at once. -/
def Half.txeAfter (x : Half) : Half := x.settleTxe.wakeQueues

/-- Registers of the transaction engine (R43). -/
def isTxeReg (off : Nat) : Bool := off / 0x100000 == 7

/-- Registers that the other half mirrors: the transaction engine's and the horizons (R274, R325, R357). -/
def isMirrored (off : Nat) : Bool :=
  isTxeReg off || (decide (0xA01000 ≤ off) && decide (off < 0xA03008)) ||
  (decide (0x900000 ≤ off) && decide (off < 0x900200) && off % 0x80 == 0x38)

/-- In PAIRED the other half holds the lead half's matching store, ports, queue configuration and positions (R274), as long
as it takes part and the half bridge is up (R37). -/
def State.txeMirror (s : State) (h : HalfId) : State :=
  let x := s.half h
  if x.run.loaded = some .paired && x.run.lead && (s.half (otherHalf h)).run.loaded == some .paired && !s.anyRetired &&
      x.rbit Reg.xchBrgStatus 2 then
    s.upd (otherHalf h) (fun y => { y with
      txe := x.txe, asr := { y.asr with mRegs := keepKeys isMirrored x.regs } })
  else s

/-- Change the engine of a half, with what follows at once, and mirror it. -/
def State.txe (s : State) (h : HalfId) (f : Half → Half) : State :=
  (s.upd h (fun x => (f x).txeAfter)).txeMirror h

/-- A write of `TXE_SQ_CFG_q` (R287). -/
def Half.sqCfgWrite (x : Half) (q : Nat) (v : Word) : Half :=
  let r := Reg.txeSqCfg q
  if x.rbit r 31 then (x.setRBit r 31 (wbit v 31)).setRBit r 30 (wbit v 30)
  else if wbit v 31 && decide (fld v 0 16 < 2) then x
  else
    let y := x.setReg r (v &&& 0xC000FFFF#32)
    if wbit v 31 && !x.asr.landed then (y.setRFld (Reg.txeSqStat q) 16 16 0).setReg (Reg.txeSqTail q) 0#32 else y

/-- A write of `TXE_CQ_CFG_q` (R287, R357, R372). -/
def Half.cqCfgWrite (x : Half) (q : Nat) (v : Word) : Half :=
  let r := Reg.txeCqCfg q
  if x.rbit r 31 then x.setReg r ((v &&& 0xC0FF0000#32) ||| (x.reg r &&& 0x0000FFFF#32))
  else if wbit v 31 && decide (fld v 0 16 < 2) then x
  else
    let y := x.setReg r (v &&& 0xC0FFFFFF#32)
    if wbit v 31 && !x.asr.landed then
      let z := (y.setReg (Reg.txeCqHead q) 0#32).setReg (Reg.txeCqStat q) 1#32
      { z with
        txe := { z.txe with cqHead := sput z.txe.cqHead q 0 0 }
        asr := { z.asr with cseq := sput z.asr.cseq q 0 0, deliv := z.asr.deliv.filter (fun d => d.1 != q) } }.setReg64
          (Reg.asrCqHznLo q) (Reg.asrCqHznHi q) 0
    else y

/-- The later of a horizon and a sequence number (R354, R357): a horizon never decreases. -/
def raised (hz n : Nat) : Nat := if later48 n hz then n else hz

/-- Horizons after a write of `TXE_CQ_HEAD_q` (R357): the CSEQ of the entry before HEAD, and the OSEQ of the messages whose
entries it covers. -/
def Half.ackCq (x : Half) (q v : Nat) : Half :=
  let n := x.cqSize q
  let h0 := x.reg64 (Reg.asrCqHznLo q) (Reg.asrCqHznHi q)
  -- the ring position behind the horizon; a restore may have put the queue back to before it
  let cs := sget x.asr.cseq q 0
  let at_ := if later48 h0 cs then x.cqTail q + (h0 + 2 ^ 48 - cs) % 2 ^ 48
    else x.cqTail q + n * 2 ^ 48 - (cs + 2 ^ 48 - h0) % 2 ^ 48
  let hz := raised h0 ((h0 + (v + n * 2 ^ 49 - at_) % max 1 n) % 2 ^ 48)
  let y := x.setReg64 (Reg.asrCqHznLo q) (Reg.asrCqHznHi q) hz
  let mine (d : Nat × Nat × Nat × Nat) : Bool := d.1 == q && !later48 d.2.1 hz
  let z := (y.asr.deliv.filter mine).foldl (fun z d =>
    let p := d.2.2.1
    z.setReg64 (Reg.asrDpHznLo p) (Reg.asrDpHznHi p) (raised (z.reg64 (Reg.asrDpHznLo p) (Reg.asrDpHznHi p)) d.2.2.2)) y
  { z with asr := { z.asr with deliv := z.asr.deliv.filter (fun d => !mine d) } }

/-- Post the entries that a load left waiting for room in CQ `q` (R281). -/
def Half.postLate (x : Half) (q : Nat) : Half :=
  x.txe.lateCq.foldl (fun y e =>
    if e.1 = q && decide (0 < y.cqRoom q) then
      let z := y.cqWrite q e.2 []
      { z with txe := { z.txe with lateCq := z.txe.lateCq.erase e } }
    else y) x

/-- The engine takes a new HEAD of a CQ. -/
def Half.takeCqHead (x : Half) (q v : Nat) : Half :=
  ({ x with txe := { x.txe with cqHead := sput x.txe.cqHead q 0 v } } : Half).postLate q

/-! ## The boundary (R254 to R257, R270) -/

/-- A number of `n` bits of the design outputs from a key up. -/
def Half.doutNum (x : Half) (key : Nat) : Nat → Nat
  | 0 => 0
  | n + 1 => bitNat (sget x.ar.dout key false) + 2 * x.doutNum (key + 1) n

/-- A message of port `p` is complete (R256). -/
def Half.msgDone (x : Half) (p : Nat) (bs : Bytes) (trunc skip : Bool) : Half :=
  let q := x.tport p
  let n := (q.oseq + 1) % 2 ^ 48
  let y := (x.setTport p { q with part := [], skip := skip, oseq := n, out := q.out ++ [⟨bs, trunc, n, x.run.cyc⟩] }).setReg64
    (Reg.txeDpOseqLo p) (Reg.txeDpOseqHi p) n
  if trunc then
    let z := if y.rbit Reg.txeErr 3 then y else y.setRFld Reg.txeErr 16 8 p
    (z.countFld (Reg.txeDpStat p) 0 16 1).txeErr 3
  else y

/-- The offer of a port at B7 (R254, R256). -/
def Half.portOffer (x : Half) (p : Nat) : Half :=
  let q := x.tport p
  let o := x.pout p
  let w := x.pw p
  let last := sget x.ar.dout (o + 1) false
  if q.ordy && sget x.ar.dout o false then
    if q.skip then x.setTport p { q with skip := !last }
    else if x.pmax p < q.part.length + w then x.msgDone p q.part true (!last)
    else
      let bs := q.part ++ leBytes w (x.doutNum (o + 3) (8 * w))
      if last then x.msgDone p bs false false else x.setTport p { q with part := bs }
  else x

/-- The presented word is taken (R254, R257): with the last one of the last message its transaction completes. -/
def Half.portTaken (x : Half) (p : Nat) : Half :=
  let q := x.tport p
  if q.iv && sget x.ar.dout (x.pout p + 2) false then
    match q.inq with
    | [] => x
    | m :: l =>
      let pos := m.pos + x.pw p
      if pos < m.data.length then x.setTport p { q with inq := { m with pos := pos } :: l }
      else
        let y := x.setTport p { q with inq := l }
        -- a SCATTER is complete when none of its parts is left in a port
        let left := (List.range 256).any (fun i => (y.tport i).inq.any (fun n => n.tid == m.tid))
        match y.txn m.tid with
        | some t => if t.open_ && t.allSent && !left then y.endTxn m.tid t 0x0B (t.commit.getD x.run.cyc) else y
        | none => y
  else x

/-- B7 of a boundary of domain `dom`: the ports take offered and presented words (R254). -/
def Half.txeB7 (x : Half) (dom : Nat) : Half :=
  ((x.domPorts dom).foldl (fun y p => (y.portOffer p).portTaken p) x).txeAfter

/-- ID and IL of port `p` in a cycle with IV = 0: open, and no real-time event bears on them (R28, log entry
107). -/
def Half.openIn (x : Half) (p : Nat) : Nat :=
  (Config.openInput (if x.run.mode = .paired then 0 else halfNum x.self) p x.run.cyc.toNat).toNat

/-- EN of the engine and the half's acceptance of work as the input commit of the present cycle finds them: as it found them
first, when it is replayed (R254, R272, R273). -/
def Half.gate (x : Half) : Bool × Bool :=
  if x.replaying then ((x.asr.gates.find? (fun g => decide (g.1.toNat ≤ x.run.cyc.toNat))).map (fun g => g.2)).getD (x.rbit Reg.txeCtrl 0, true)
  else (x.rbit Reg.txeCtrl 0, x.accepting)

/-- The gates of an input commit are remembered for a replay. -/
def Half.noteGate (x : Half) : Half :=
  if !x.asr.active || x.replaying || (x.asr.gates.head?.map (fun g => g.2)) = some x.gate then x
  else { x with asr := { x.asr with gates := (x.run.cyc, x.gate) :: x.asr.gates } }

/-- The input bits that a port commits for the next cycle (R254, R255, R257). ID and IL of a cycle with IV = 0 are open. -/
def Half.portCommit (x : Half) (p : Nat) : List (Nat × Bool) × Half :=
  let q := x.tport p
  let w := x.pw p
  let (on, accepts) := x.gate
  let ordy := on && accepts && decide (x.outUsed p + w ≤ x.rfld (Reg.txeDpBuf p) 16 12 * 256)
  let iv := on && !q.inq.isEmpty
  let (word, last) := match iv, q.inq with
    | true, m :: _ => (leNat ((m.data.drop m.pos).take w), decide (m.data.length ≤ m.pos + w))
    | _, _ => (natField (x.openIn p) 1 64, natBit (x.openIn p) 0)
  let bits := [(x.pin p, ordy), (x.pin p + 1, iv), (x.pin p + 2, last)] ++
    (List.range (8 * w)).map (fun i => (x.pin p + 3 + i, natBit word i))
  let y := ((x.setTport p { q with ordy := ordy, iv := iv }).setRBit (Reg.txeDpStat p) 31 ordy).setRBit (Reg.txeDpStat p) 30 iv
  let z := match iv, q.inq with
    | true, m :: _ =>
      match y.txn m.tid with
      | some t => if t.commit.isNone then y.setTxn m.tid (some { t with commit := some x.run.cyc }) else y
      | none => y
    | _, _ => y
  (bits, z)

/-- The design input bits take values. -/
def Half.setDin (x : Half) (bits : List (Nat × Bool)) : Half :=
  { x with ar := { x.ar with din := bits.foldl (fun m b => sput m b.1 false b.2) x.ar.din } }

/-- B9 of a boundary of domain `dom` (R254, R270): expired nanosecond time-outs take effect on what is not ready by then, and
the ports commit. The
committed bits are also given, for the other half of a lockstep pair (R274). -/
def Half.txeB9 (x : Half) (dom : Nat) : List (Nat × Bool) × Half :=
  let y := if x.asr.active then x.drainTxe else x.settleTxe
  let y := (y.txe.txn.map (fun e => e.1)).foldl (fun y tid =>
    match y.txn tid with
    | some t =>
      if t.expiring && t.t.firstPort.all (fun p => y.rfld (Reg.txeDpCfg p) 0 8 == dom) then y.expireTxn tid else y
    | none => y) y
  let y := (if y.asr.active then y.drainTxe else y.txeAfter).noteGate
  let r := (y.domPorts dom).foldl (fun (a : List (Nat × Bool) × Half) p =>
    let (b, z) := a.2.portCommit p
    (a.1 ++ b, z)) ([], y)
  (r.1, r.2.setDin r.1)

/-- The boundary is over for the engine. -/
def Half.endB (x : Half) : Half :=
  { x with txe := { x.txe with
    inB := false
    txn := x.txe.txn.map (fun (e : Nat × Option Txn) => (e.1, e.2.map (fun t => { t with late := false }))) } }

/-- B13 of a boundary of domain `dom` (R270): a user cycle of the waits that count in this domain has passed. -/
def Half.txeB13 (x : Half) (dom : Nat) : Half :=
  ((x.txe.txn.map (fun e => e.1)).foldl (fun y tid =>
    match y.txn tid with
    | some t =>
      if t.open_ && !t.ready && !t.running && !t.late && !t.t.toNs && t.t.timeout != 0 &&
          (t.t.firstPort.map (fun p => y.rfld (Reg.txeDpCfg p) 0 8)) == some dom then
        let z := y.setTxn tid (some { t with age := t.age + 1 })
        if t.age + 1 = t.t.timeout then z.expireTxn tid else z
      else y
    | none => y) x).endB.txeAfter

/-- A successful load (R281): every transaction in flight ends ABORTED, its entry posted where its CQ is enabled, as soon as
that has room; store, lists and buffers are emptied. The mirrored copy of a lockstep pair posts nothing (R274). -/
def Half.txeLoad (x : Half) : Half :=
  let ends := x.txe.txn.filterMap (fun (e : Nat × Option Txn) => e.2.bind (fun t =>
    if t.retired then none
    else (t.cq.filter (fun q => x.cqOn q)).map (fun q =>
      (q, t.entry e.1 (match t.outcome with
        | some o => o.1
        | none => 0x0C) x.run.cyc))))
  let late := if x.run.prev = some .paired ∧ x.run.lead = false then [] else x.txe.lateCq ++ ends
  let y := { x with txe := { Txe.zero with
    stwRx := x.txe.stwRx, cqHead := x.txe.cqHead, lchRx := x.txe.lchRx, lchGr := x.txe.lchGr, lchCnt := x.txe.lchCnt
    heldOut := x.txe.heldOut, wake := x.txe.wake, lateCq := late } }
  ((List.range 64).foldl Half.postLate y).setReg64 Reg.asrAseqLo Reg.asrAseqHi 0

end Sys2Proof.Machine
end

