-- ==== Sys2Proof/Machine/RunCtl.lean ====
section
/-!
DEFINITION. Machine/RunCtl.lean: run states and their transitions (R186 to R191, R194, R197, R210).
-/

namespace Sys2Proof.Machine

/-! ## Halves that work together (R34, R35) -/

/-- Both halves take part in a run of mode `m`: JOINED or PAIRED, and neither retired. -/
def State.joint (s : State) (m : Mode) : Bool := m != .split && !s.anyRetired

/-- The halves that take part in a run of mode `m` started on half `h`. -/
def State.runHalves (s : State) (h : HalfId) (m : Mode) : List HalfId := if s.joint m then [.h0, .h1] else [h]

/-- Both halves take part in the run of half `h` (R5, R34): the current or last run of each was JOINED or PAIRED, and
neither is retired. -/
def State.paired (s : State) (h : HalfId) : Bool :=
  s.joint (s.half h).run.mode && (s.half (otherHalf h)).run.mode != .split

/-- The half leads (R35, R194, R340): in JOINED and PAIRED the lead half does, in SPLIT or alone each. Before a run it is the mode of
the image that counts, for which the sequencer and assured operation prepare (DEDUCED: log entry 128). -/
def State.leads (s : State) (h : HalfId) : Bool := !s.joint (s.half h).imgMode || (s.half h).run.lead

/-- Change every half that the image of half `h` runs on (R340). -/
def State.imgGrp (s : State) (h : HalfId) (f : Half → Half) : State :=
  if s.joint (s.half h).imgMode then s.both f else s.upd h f

/-- The halves that are to run take the mode of their image (R5). -/
def State.takeMode (s : State) (h : HalfId) : State :=
  let m := (s.half h).imgMode
  (s.runHalves h m).foldl (fun t k => t.upd k (fun x => { x with run := { x.run with mode := m } })) s

/-- Change every half that takes part in the run of half `h`. -/
def State.grp (s : State) (h : HalfId) (f : Half → Half) : State := if s.paired h then s.both f else s.upd h f

/-- Change half `h`, and in PAIRED its twin with it: what reaches the design reaches both (R34, R345). -/
def State.twins (s : State) (h : HalfId) (f : Half → Half) : State :=
  if s.paired h && (s.half h).run.mode == .paired then s.both f else s.upd h f

/-- The half whose sequencer and registers control the run of `h`. -/
def State.leadOf (s : State) (h : HalfId) : HalfId := if s.paired h then (if s.h0.run.lead then .h0 else .h1) else h

/-- The PTP time that records of a half show: in PAIRED the lead half's (R324). -/
def State.recTime (s : State) (h : HalfId) : PtpTime :=
  if s.paired h && (s.half h).run.mode == .paired then (s.half (s.leadOf h)).phc else (s.half h).phc

/-- Does some half of the run of `h` satisfy `p`? -/
def State.anyGrp (s : State) (h : HalfId) (p : Half → Bool) : Bool :=
  if s.paired h then p s.h0 || p s.h1 else p (s.half h)

/-! ## Transitions -/

/-- The code of a run state (R186). -/
def RunState.code : RunState → Nat
  | .unloaded => 0
  | .ready => 1
  | .running => 2
  | .held => 3
  | .stopped => 4
  | .faulted => 5
  | .recovering => 6

/-- The code of a state of assured operation (R375). -/
def AsrState.code : AsrState → Nat
  | .off => 0
  | .starting => 1
  | .active => 2
  | .recovering => 3
  | .diagnosing => 4
  | .suspended => 5

/-- Enter a run state; the edge scheduler's trace tells of it (R533), and doorbells refused in RECOVERING may be rung again
once it is left (R260). -/
def Half.enter (x : Half) (st : RunState) : Half :=
  let y := ({ x with run := { x.run with state := st } } : Half).trace 2 4 [BitVec.ofNat 32 st.code]
  if x.run.state = .recovering then y.wakeQueues else y

/-- A blocking run-control instruction ends with a status word (R197); HOLD and STOP with the code of what they asked for (log
entry 81). -/
def Half.endRunWait (x : Half) (code : Nat) (event : Option Nat) : Half :=
  let event := event.getD 0
  match x.seq.wait with
  | .run wd _ => x.endWait wd (statusWord code event)
  | .hold wd => x.endWait wd (statusWord code event)
  | .stop wd => x.endWait wd (statusWord code event)
  | _ => x

/-- The run is held (R189, R190): `SEQ_STOPINFO` records it, event 273 is raised. A request that came after the B0 of this
boundary still stands (log entry 27). -/
def Half.intoHeld (x : Half) (q : HoldReq) : Half :=
  let y := { x with run := { x.run with cond := some q, holdCyc := none, holdVt := none } }
  (((y.enter .held).noteStop q.code q.event q.cyc).event 273).endRunWait q.code q.event

/-- The run is stopped (R191): event 274 is raised; assured operation pauses (R341). -/
def Half.intoStopped (x : Half) (q : HoldReq) : Half :=
  let y := { x with
    run := { x.run with
      cond := none, req := none, holdCyc := none, holdVt := none, idle := none, linked := false, linkHalt := false
      linkEnd := x.run.linkEnd || (x.run.linked && x.run.linkWait.isNone), linkWait := none, linkSend := none }
    asr := { x.asr with active := false, st := if x.asr.active then .suspended else x.asr.st } }
  (((y.enter .stopped).noteStop 9 q.event q.cyc).event 274).endRunWait 9 q.event

/-- The run enters FAULTED (R186): event 274 is raised; assured operation is no longer active (R341). -/
def Half.intoFaulted (x : Half) : Half :=
  let y := { x with
    run := { x.run with
      cond := none, req := none, holdCyc := none, holdVt := none, stall := none
      rest := [], decided := none, hfault := false, idle := none, linked := false, linkHalt := false
      linkEnd := x.run.linkEnd || (x.run.linked && x.run.linkWait.isNone), linkWait := none, linkSend := none }
    asr := { x.asr with active := false, replay := none, phase := none, fresh := none, patBad := [], patAgain := false
                        st := if x.asr.active then .suspended else x.asr.st } }
  (((y.enter .faulted).noteStop 0x0A none x.run.cyc).event 274).endRunWait 0x0A none

/-- Hold or stop the run of `h`, as a request says (R190, R191). -/
def State.holdRun (s : State) (h : HalfId) (q : HoldReq) : State :=
  if q.stop then s.grp h (fun x => x.intoStopped q) else s.grp h (fun x => x.intoHeld q)

/-- A stop requested in HELD takes effect at once, and a stop turns the hold it reaches into STOPPED (R191); a held run is
at a stall point, where a half fault takes effect (R238). -/
def State.settleHalf (s : State) (h : HalfId) : State :=
  let x := s.half h
  match x.run.state, x.run.req with
  | .held, q =>
    if x.run.hfault && !x.asr.active then s.grp h Half.intoFaulted
    else match q with
      | some q => if q.stop then s.grp h (fun y => y.intoStopped q) else s
      | none => s
  | .running, _ => s
  | .recovering, _ => s
  | _, some _ => s.upd h (fun y => { y with run := { y.run with req := none } })
  | _, none => s

/-- What follows at once from events and requests raised in either half. -/
def State.settle (s : State) : State := (s.settleHalf .h0).settleHalf .h1

/-- A half fault without assured operation stops the run at once it takes effect (R186, R238, R249). -/
def State.faultRun (s : State) (h : HalfId) : State := s.grp h Half.intoFaulted

end Sys2Proof.Machine
end

