-- ==== Sys2Proof/Machine/Asr.lean ====
section
/-!
DEFINITION. Machine/Asr.lean: assured operation: the journal, checkpoints, restores and replay (R337 to R364).
-/

namespace Sys2Proof.Machine

/-! ## Events of assured operation (R378, R379) -/

/-- A bit of `ASR_EVT` sets; it raises the ASR vector when IRQ_EN is 1. -/
def Half.asrEvt (x : Half) (bit : Nat) : Half :=
  if x.rbit Reg.asrEvt bit then x else (x.setRBit Reg.asrEvt bit true).irq Reg.asrIrq

/-- CAUSE of `ASR_STATUS` (R375). -/
def Half.asrCause (x : Half) (c : Nat) : Half := x.setRFld Reg.asrStatus 24 4 c

/-! ## The journal (R342 to R348) -/

/-- The bytes of a record's body (R347). -/
def JRec.body_ (r : JRec) : Bytes :=
  match r.body with
  | .sqEntry _ aseq pos tid outcome entry payload =>
    leBytes 6 aseq ++ zeros 2 ++ leBytes 2 pos ++ leBytes 2 tid ++ leBytes 1 outcome ++ zeros 3 ++ entry ++ payload
  | .engine sub value => leBytes 1 sub ++ zeros 1 ++ leBytes 2 value ++ zeros 4
  | .extEdge f => leBytes 1 (bitNat f) ++ zeros 7
  | .dispatch f vt => leBytes 1 (bitNat f) ++ zeros 7 ++ leBytes 8 vt.toNat
  | .xtSample s => leBytes 1 s.level.toNat ++ leBytes 1 s.edge.toNat ++ leBytes 1 s.ptp.toNat ++ zeros 5
  | .inputBits kind tile first count bits =>
    leBytes 1 kind ++ leBytes 1 tile ++ leBytes 1 first ++ leBytes 1 count ++ zeros 4 ++ leBytes ((count + 7) / 8) bits
  | .control action index _ parts =>
    let desc := parts.flatMap (fun p => p.2)
    leBytes 1 action ++ zeros 1 ++ leBytes 2 index ++ leBytes 2 (desc.length / 64) ++ zeros 2 ++ desc
  | .defer q => leBytes 6 q ++ zeros 2
  | .mark gen start => leBytes 4 gen ++ leBytes 4 (bitNat start)
  | .pad n => zeros (n - 24)

/-- The TYPE of a record (R347). -/
def JRec.typ (r : JRec) : Nat :=
  match r.body with
  | .sqEntry .. => 1 | .engine .. => 2 | .extEdge .. => 3 | .dispatch .. => 4 | .xtSample .. => 5 | .inputBits .. => 6
  | .control .. => 7 | .defer .. => 8 | .mark .. => 9 | .pad .. => 10

/-- The length of a record: header, body, padding (R346). A PAD record fills what is left of the ring, however little. -/
def JRec.len (r : JRec) : Nat :=
  match r.body with
  | .pad n => n
  | _ => (24 + r.body_.length + 7) / 8 * 8

/-- A record's bytes (R346): the CRC is taken with its field at 0. -/
def JRec.bytes (r : JRec) (partner : Bool) : Bytes :=
  let head := leBytes 1 r.typ ++ leBytes 1 (bitNat partner) ++ leBytes 2 r.len ++ leBytes 2 r.src ++ leBytes 6 r.jseq
  let tail := leBytes 8 r.cyc.toNat ++ r.body_ ++ zeros (r.len - 24 - r.body_.length)
  head ++ leBytes 4 (crc32c (head ++ zeros 4 ++ tail)).toNat ++ tail

/-- Bytes of the ring in use, and its size (R345, R376). -/
def Half.jUsed (x : Half) : Nat := x.asr.journal.foldl (fun a r => a + r.len) 0
def Half.jSize (x : Half) : Nat := x.rfld Reg.asrJsize 0 16 * 2 ^ 20

/-- Ask for a checkpoint: it merges with one in progress (R350). -/
def Half.ckptAsk (x : Half) : Half :=
  if x.asr.active && x.asr.phase.isNone && !x.run.linked then { x with asr := { x.asr with phase := some .asked } } else x

/-- The PAD record that must come before a record of length `n`: 0 bytes where that fits before the ring's end (R346). -/
def Half.jPad (x : Half) (n : Nat) : Nat := if x.asr.jpos + n ≤ x.jSize then 0 else x.jSize - x.asr.jpos

/-- Is there room for a record (R348)? -/
def Half.jRoom (x : Half) (r : JRec) : Bool := decide (x.jUsed + x.jPad r.len + r.len ≤ x.jSize)

/-- Write a record at the ring's position, under the half's next JSEQ (R345, R346). -/
def Half.jWrite (x : Half) (r : JRec) : Half :=
  let n := (x.asr.jseq + 1) % 2 ^ 48
  { x with asr := { x.asr with
    jseq := n, jpos := (x.asr.jpos + r.len) % max 1 x.jSize, journal := x.asr.journal ++ [{ r with jseq := n }] } }

/-- Append a record (R346, R348), after a PAD record where it would straddle the ring's end; more than three quarters full
asks for a checkpoint. -/
def Half.jPut (x : Half) (r : JRec) : Half :=
  let pad := x.jPad r.len
  let y := if pad = 0 then x else x.jWrite ⟨0, 0, x.run.cyc, none, 0, true, true, false, false, .pad pad⟩
  let z := y.jWrite r
  if z.jSize * 3 < z.jUsed * 4 then (z.asrEvt 8).ckptAsk else z

/-- A new record for an input: it takes effect at the first boundary of its domain whose B9 falls at least 1,024 steps
later (R343). -/
def Half.jNew (x : Half) (src : Nat) (dom : Option Nat) (body : JBody) : JRec :=
  ⟨0, src, x.run.cyc, dom, x.run.steps + 1024, false, false, false, false, body⟩

/-- Records may begin: live inputs wait while the half recovers and replays (R361). -/
def Half.jOpen (x : Half) : Bool := x.run.state != .recovering

/-- Journal an input where there is room and no earlier one waits; else it is not accepted and waits (R348). -/
def Half.journal (x : Half) (src : Nat) (dom : Option Nat) (body : JBody) : Half :=
  let r := x.jNew src dom body
  if x.asr.waiting.isEmpty && x.jOpen && x.jRoom r then x.jPut r
  else { x with asr := { x.asr with waiting := x.asr.waiting ++ [r] } }

/-- The inputs that waited are journalled in their order, as far as there is room (R348); their stamps are counted from
here (R343). -/
def Half.flushWaiting (x : Half) : Half :=
  (x.asr.waiting.foldl (fun (a : Bool × Half) r =>
    let r : JRec := { r with cyc := a.2.run.cyc, minStep := a.2.run.steps + 1024 }
    if a.1 && a.2.asr.active && a.2.jOpen && a.2.jRoom r then
      (true, ({ a.2 with asr := { a.2.asr with waiting := a.2.asr.waiting.drop 1 } } : Half).jPut r)
    else (false, a.2)) (true, x)).2

/-- A record of something that has taken effect: a MARK, a DISPATCH, an action in HELD. -/
def Half.jNote (x : Half) (src : Nat) (cyc : DWord) (idle : Bool) (body : JBody) : Half :=
  x.jPut ⟨0, src, cyc, none, 0, true, true, false, idle, body⟩

/-! ## Records take effect (R342, R343, R361) -/

/-- Bits from FIRST_BIT of a tile, as the keys of design input bits. -/
def inBits (tile first count bits : Nat) : List (Nat × Bool) :=
  (List.range count).map (fun i => (tile * 128 + first + i, natBit bits i))

/-- Samples skipped combine their transitions (R302). -/
def TrgEng.offer (g : TrgEng) (s : XtSample) : TrgEng :=
  match g.prev with
  | some p => { g with prev := some { s with edge := s.edge ||| p.edge } }
  | none => { g with prev := some s }

/-- An external trigger sample becomes the newest accepted one. -/
def Half.offerSample (x : Half) (s : XtSample) : Half :=
  (List.range 4).foldl (fun y e =>
    let g := y.trg e
    if g.st == .active then y.setTrg e (g.offer s) else y) { x with eng := { x.eng with xtNew := some s } }

/-- The result of a register abort (R285). -/
def Half.abortRes (x : Half) (tid : Nat) : Half :=
  let (c, y) := x.abortTxn tid
  y.setReg Reg.txeAbortRes (BitVec.ofNat 32 (tid * 65536 + 256 + c))

/-- Write a domain's EN bit, with what R197 gives it as a pending edge. -/
def Half.domSet (x : Half) (slot : Nat) (on : Bool) : Half :=
  let d := x.desc slot
  let y := x.setRBit (Reg.edgDesc slot 3) 16 on
  let dom := domOf x.run.mode x.self slot
  if on then
    if d.ext then y else { y with run := { y.run with pend := sput y.run.pend slot none (some (firstEdgeAfter d x.run.vt)) } }
  else { y with run := { y.run with
    pend := sput y.run.pend slot none none, ext := y.run.ext.filter (fun e => e.due.dom != dom) } }

/-- Set a domain's EN for the run of half `h`: its slot, in PAIRED the slot of both halves (R197). -/
def State.domSet (s : State) (h : HalfId) (dom : Nat) (on : Bool) : State :=
  let mode := (s.half h).run.mode
  match domSlot h mode dom with
  | some (k, slot) => if mode = .paired then s.both (fun x => x.domSet slot on) else s.upd k (fun x => x.domSet slot on)
  | none => s

/-- Arm an engine (R294, R324): in PAIRED both halves, with the lead half's descriptor; in JOINED, for the sequencer, both
halves with their own entries, a half whose entry is all zero taking no part; else the half alone. -/
def State.arm (s : State) (h : HalfId) (k : EngKind) (e idx : Nat) (seq : Bool) : Nat × State :=
  let en (p : HalfId) (d : Nat) : Bool := domEnabled s p (s.half p).imgMode d
  let one (p : HalfId) : Nat × Half := (s.half p).armEngine k e idx (en p)
  if s.paired h && (s.half h).run.mode == .paired then
    let r := one h
    -- the other half arms the same engine on the same descriptor
    let t := r.2
    let s1 := s.setHalf h t
    (r.1, s1.upd (otherHalf h) (fun y =>
      let y := y.setRFld (statReg k e) 16 8 r.1
      if r.1 = 0 ∨ r.1 = 0x0E then
        match k with
        | .trigger => y.setTrg e (t.trg e)
        | .capture => ((y.setCap e { t.cap e with staged := (y.cap e).staged }).setReg (Reg.capHsHead e) 0#32).setReg64
            (Reg.capSpillLo e) (Reg.capSpillHi e) 0
        | .playback => y.setPly e (t.ply e)
      else y))
  else if s.paired h && seq then
    let o := otherHalf h
    let empty (p : HalfId) : Bool := decide (idx < 4096) && ((s.half p).entries idx 1).all (fun b => b == 0#8)
    let a := one h
    let b := one o
    let okA := empty h || a.1 == 0 || a.1 == 0x0E
    let okB := empty o || b.1 == 0 || b.1 == 0x0E
    if okA && okB then
      let s1 := if empty h then s else s.setHalf h a.2
      let s2 := if empty o then s1 else s1.setHalf o b.2
      (if (!empty h && a.1 == 0x0E) || (!empty o && b.1 == 0x0E) then 0x0E else 0, s2)
    else
      -- neither arms: an engine that refuses shows its refusal, the other the status of the ARM (log entry 113)
      let c := if okA then b.1 else a.1
      let show_ (p : HalfId) (ok : Bool) (own : Nat) (s : State) : State :=
        if empty p then s else s.upd p (fun x => x.setRFld (statReg k e) 16 8 (if ok then c else own))
      (c, show_ o okB b.1 (show_ h okA a.1 s))
  else
    let r := one h
    (r.1, s.setHalf h r.2)

/-- Abort an engine: from the sequencer in JOINED, and in PAIRED, in both halves (R324). -/
def State.abortEng (s : State) (h : HalfId) (k : EngKind) (e : Nat) (seq : Bool) : State :=
  let s1 := if s.paired h && (seq || (s.half h).run.mode == .paired) then s.upd (otherHalf h) (fun x => x.abortAsk k e false)
    else s
  s1.upd h (fun x => x.abortAsk k e seq)

/-- An ARM has completed: the sequencer's ARM ends with its status (R291). -/
def State.armDone (s : State) (h : HalfId) (k : EngKind) (e idx : Nat) (seq : Bool) : State :=
  let (c, s1) := s.arm h k e idx seq
  if seq then
    s1.upd h (fun x => match x.seq.wait with
      | .arm wd => x.endWait wd (statusWord c 0)
      | _ => x)
  else s1

/-- The entries of a descriptor and of the SIGLIST and REDLIST it names, in table order (R290, R347). -/
def Half.descParts (x : Half) (idx : Nat) : List (Nat × Bytes) :=
  let part (i : Nat) : Nat × Bytes := (i, x.entries i (max 1 (descEntries (x.entries i 1))))
  let d := x.entries idx 1
  let lists := if bn d 0 1 = 2 then
      (if bn d 1 1 = 1 then [] else [bn d 6 2]) ++ (if bn d 1 1 = 2 then [bn d 8 2] else [])
    else []
  sortKey (fun p => p.1) ((idx :: lists).map part)

/-- What reading a descriptor and its lists from SP2 leaves (R238). -/
def Half.descRead (x : Half) (idx : Nat) : Half :=
  (x.descParts idx).foldl (fun y p => if p.1 < 4096 then (y.devRead .engines (spAddr 2 + p.1 * 64) p.2.length).2 else y) x

/-- Act with the descriptor table as a journal record holds it, and leave the table as it is. -/
def State.withTable (s : State) (h : HalfId) (parts : List (Nat × Bytes)) (f : State → State) : State :=
  let m := (s.half h).mem
  let t := f (s.upd h (fun x => { x with mem := parts.foldl (fun m p => wrBytes m (spAddr 2 + p.1 * 64) p.2) m }))
  t.upd h (fun x => { x with mem := m })

/-- A record takes effect in the half that journalled it; in PAIRED what reaches the design reaches both (R34, R345). -/
def State.applyRec (s : State) (h : HalfId) (r : JRec) : State :=
  match r.body with
  | .sqEntry q aseq pos tid outcome entry payload =>
    (s.upd h (fun x =>
      let y := { x with txe := { x.txe with staged := x.txe.staged.filter (fun e => !(e.q == q && e.pos == pos && e.entry == entry)) } }
      if outcome = 0 then y.takeEntry q entry (some tid) (some (payload, aseq)) else (y.sqNext q).refuseEntry q entry)).txe h id
  | .engine sub value =>
    match sub with
    | 1 => s.txe h (fun x => x.abortRes r.src)
    | 2 => s.upd h (fun x => x.expireSoon r.src)
    | _ => s.txe h (fun x => x.takeCqHead r.src value)
  | .inputBits kind tile first count bits =>
    let f (x : Half) : Half :=
      let y := x.setDin (inBits tile first count bits)
      if kind = 1 then { y with ar := { y.ar with chHit := sput y.ar.chHit r.src false true } } else y
    s.twins h f
  | .control action index seq parts =>
    match action with
    | 1 => match engOf r.src with
      | some (k, e) => s.withTable h parts (fun t => t.armDone h k e index seq)
      | none => s
    | 2 => match engOf r.src with
      | some (k, e) => s.abortEng h k e seq
      | none => s
    | 3 => s.domSet h r.src true
    | _ => s.domSet h r.src false
  | _ => s

/-- Change a record of the journal. -/
def Half.setRec (x : Half) (jseq : Nat) (f : JRec → JRec) : Half :=
  { x with asr := { x.asr with journal := x.asr.journal.map (fun r => if r.jseq = jseq then f r else r) } }

/-- A record that takes effect at B9 of a boundary: everything but edges, samples, run-control actions and the ASR's own. -/
def JRec.atB9 (r : JRec) : Bool :=
  match r.body with
  | .sqEntry .. => true
  | .engine .. => true
  | .inputBits .. => true
  | _ => false

/-- A run-control action: it takes effect at the stall point, before the boundary's input commit (R293, R342). -/
def JRec.isControl (r : JRec) : Bool :=
  match r.body with
  | .control .. => true
  | _ => false

/-- The source of a record: for INPUT_BITS the kind is part of it (R347). -/
def JRec.source (r : JRec) : Nat × Nat :=
  match r.body with
  | .inputBits kind .. => (6 + 16 * kind, r.src)
  | _ => (r.typ, r.src)

/-- A slice of a cycle channel: the next one's stamp boundary is later (R407). -/
def JRec.isSlice (r : JRec) : Bool :=
  match r.body with
  | .inputBits kind .. => kind == 1
  | _ => false

/-- A record takes effect, or is deferred, in the present cycle: the DEFER record that waits for this boundary learns its
stamp (R347). -/
def Half.stampDefer (x : Half) (jseq : Nat) : Half :=
  { x with asr := { x.asr with journal := x.asr.journal.map (fun r => match r.body with
    | .defer q => if q = jseq && !r.done then { r with done := true, cyc := x.run.cyc } else r
    | _ => r) } }

/-- A record is deferred (R343): a DEFER record, whose new stamp is known when its boundary comes. -/
def Half.deferRec (x : Half) (jseq : Nat) : Half :=
  (x.stampDefer jseq).jPut ⟨0, 0, x.run.cyc, none, 0, true, false, false, false, .defer jseq⟩

/-- A boundary of domain `dom` (R343): the records among `mine` whose boundary this is take effect, in order; one that is not
yet confirmed is deferred, and with it the later ones of its source. The accumulator holds the sources that are deferred
and those that are done with for this boundary. -/
def State.applyDue (s : State) (h : HalfId) (dom : Nat) (mine : JRec → Bool) : State :=
  let x := s.half h
  let due (r : JRec) : Bool := !r.done && mine r && decide (r.minStep ≤ x.run.steps) &&
    (match r.dom with
     | some d => d == dom
     | none => true)
  (x.asr.journal.foldl (fun (a : List (Nat × Nat) × List (Nat × Nat) × State) r =>
    if !due r || a.2.1.contains r.source then a
    else if r.conf && !a.1.contains r.source then
      (a.1, if r.isSlice then r.source :: a.2.1 else a.2.1,
       (a.2.2.applyRec h r).upd h (fun y => (y.stampDefer r.jseq).setRec r.jseq (fun q => { q with done := true, cyc := y.run.cyc })))
    else
      (r.source :: a.1, a.2.1, a.2.2.upd h (fun y => y.deferRec r.jseq))) ([], [], s)).2.2

/-- In replay (R361): the records among `mine` stamped with the present cycle take effect again. -/
def State.replayDue (s : State) (h : HalfId) (mine : JRec → Bool) : State :=
  let x := s.half h
  x.asr.journal.foldl (fun t r =>
    if r.redo && mine r && r.cyc == x.run.cyc then
      (t.applyRec h r.again).upd h (fun y => y.setRec r.jseq (fun q => { q with redo := false }))
    else t) s

/-- B8 of a boundary at which a trigger engine evaluates: accepted samples become usable (R302), in replay those stamped
with this cycle. -/
def Half.samplesB8 (x : Half) : Half :=
  x.asr.journal.foldl (fun y r =>
    match r.body with
    | .xtSample s =>
      if x.replaying then
        if r.redo && r.cyc == x.run.cyc then (y.offerSample s).setRec r.jseq (fun q => { q with redo := false }) else y
      else if r.conf && !r.done then
        (y.offerSample s).setRec r.jseq (fun q => { q with done := true, cyc := x.run.cyc })
      else y
    | _ => y) x

/-! ## Generations (R351 to R354) -/

/-- Slots of the half whose attribute has bit `i` set, ascending by tile, BP and slot (R313, R351). -/
def Half.attrSlots (x : Half) (i : Nat) : List (Nat × Nat) :=
  (x.mem.filter (fun c => decide (attrBase 0 ≤ c.1) && decide (c.1 < attrBase 64))).flatMap (fun c =>
    let o := c.1 - attrBase 0
    let g := o / 0x800
    let s := 2 * (o % 0x800)
    (if c.2.getLsbD i then [(g, s)] else []) ++ (if c.2.getLsbD (i + 4) then [(g, s + 1)] else []))

/-- Bytes that a generation holds whole: banks and HBM that the design owns, SP1 and SP2 (R351). -/
def Half.genHolds (x : Half) (a : Nat) : Bool :=
  (decide (0x88000000 ≤ a) && decide (a < 0x8C000000) && x.bankOwned ((a - 0x88000000) / 0x100000)) ||
  (decide (spAddr 1 ≤ a) && decide (a < spAddr 3)) ||
  (decide (hbmBase ≤ a) && decide (a < 0x1C00000000) && x.hbmOwned a)

/-- Registers that a restore puts back (R351): EDG, the engines' and the transaction engine's positions; horizons and host
controls stay, and with them the tail of the last accepted doorbell, up to which the engine fetches again (R358). -/
def regHeld (off : Nat) : Bool :=
  let b := off / 0x100000
  b == 6 || b == 8 || b == 21 || (b == 9 && !(decide (off < 0x900200) && off % 0x80 == 0x38)) ||
  (b == 7 && ((decide (0x704000 ≤ off) && decide (off < 0x706000)) ||
    (decide (0x701000 ≤ off) && decide (off < 0x702000) && (off % 0x40 == 0x10 || off % 0x40 == 0x24))))

/-- The design state of the half as it stands (R351). -/
def Half.snap (x : Half) (gen : Nat) : Snap :=
  { gen := gen, cyc := x.run.cyc, vt := x.run.vt, pend := x.run.pend, ext := x.run.ext, dec := x.run.decided
    stall := x.run.stall, rest := x.run.rest, ar := x.ar, mem := x.mem, regs := x.regs, txe := x.txe, eng := x.eng, cseq := x.asr.cseq, mark := 0
    jdone := (x.asr.journal.filter (fun r => r.done)).map (fun r => r.jseq) }

/-- Bytes of a host ring that a replay does not write again: those written since the generation and already read (R325). -/
def hsSkipOf (size tail0 tail1 head : Nat) : Nat :=
  if size = 0 then 0 else (tail1 + size - tail0) % size - (tail1 + size - head) % size

/-- The granules in which memory differs from what it was count as written (R248). -/
def Half.touchChanged (x : Half) (old : List Host.Cell) : Half :=
  let diff (a b : List Host.Cell) : List Nat :=
    (a.filter (fun c => decide (0x88000000 ≤ c.1) && decide (c.1 < 0x8C800000) && rdByte b c.1 != c.2)).map (fun c => c.1)
  (diff old x.mem ++ diff x.mem old).foldl (fun y a => y.touch a 1) x

/-- Put a generation back (R351, R357 to R359): slots with CKPT, registers, memories, queues and engines; horizons, other
slots, the host's registers and the TRG_XO outputs stay (R325). Link transactions in flight end LINK_LOST. -/
def Half.restoreSnap (x : Half) (g : Snap) : Half :=
  let held (a : Nat) : Bool := x.genHolds a
  let slots := (x.attrSlots 1).map (fun p => (p, (rdByte g.mem (slotAddr p.1 p.2)).getLsbD (p.2 % 8)))
  let y := x.clearMem held
  let cells : List Host.Cell := g.mem.filter (fun (c : Host.Cell) => held c.1)
  let y := { y with
    mem := cells.foldl (fun m (c : Host.Cell) => wrByte m c.1 c.2) y.mem
    ar := { y.ar with ecc := keepKeys (fun a => !held a) y.ar.ecc } }
  let y := y.touchChanged x.mem
  let y := slots.foldl (fun y p => y.setSlot p.1.1 p.1.2 p.2) y
  let regs := keepKeys (fun k => !regHeld k) y.regs
  let back : List (Nat × Word) := g.regs.filter (fun (e : Nat × Word) => regHeld e.1)
  let regs := back.foldl (fun m (e : Nat × Word) => sput m e.1 (regReset e.1) e.2) regs
  let cap (c : Nat) (e : CapEng) : CapEng :=
    match e.desc with
    | some d => if natField d.flags 2 2 = 2 then
        { e with hsSkip := hsSkipOf d.spSize e.hsTail (x.cap c).hsTail (x.hsHead c) } else e
    | none => e
  let trg (e : Nat) (v : TrgEng) : TrgEng :=
    { v with xo := (x.trg e).xo, pulse := (x.trg e).pulse, xoQ := (x.trg e).xoQ, xoTime := (x.trg e).xoTime }
  let z := { y with
    regs := regs
    ar := { g.ar with ecc := y.ar.ecc, unsrvd := x.ar.unsrvd, pendBp := x.ar.pendBp, pendSw := x.ar.pendSw, sent := [], lin := x.ar.lin
                      linBad := x.ar.linBad }
    run := { x.run with
      linkEnd := false, cyc := g.cyc, vt := g.vt, pend := g.pend, ext := g.ext, decided := g.dec
      stall := g.stall, rest := g.rest, idle := none }
    txe := { g.txe with
      stwRx := x.txe.stwRx, lchRx := x.txe.lchRx, lchGr := x.txe.lchGr, lchCnt := x.txe.lchCnt, wake := x.txe.wake
      heldOut := []
      -- entries whose record stands stay taken; the others are fetched again (R358)
      staged := x.txe.staged.filter (fun e => x.asr.journal.any (fun r => !r.done && (match r.body with
        | .sqEntry q _ pos _ _ _ _ => q == e.q && pos == e.pos
        | _ => false))) }
    eng := { g.eng with trg := (List.range 4).foldl (fun m e => sput m e TrgEng.zero (trg e (sget g.eng.trg e TrgEng.zero))) []
                        cap := g.eng.cap.map (fun (e : Nat × CapEng) => (e.1, cap e.1 e.2)), xtLevel := x.eng.xtLevel, xtLatch := x.eng.xtLatch }
    asr := { x.asr with cseq := g.cseq, sigs := none, phase := none, fresh := none } }
  z.endLink (fun _ _ => true) (fun _ => (0x26, x.run.cyc))

/-- An accepted external edge. -/
def JRec.isEdge (r : JRec) : Bool :=
  match r.body with
  | .extEdge _ => r.conf
  | _ => false

/-- What a restore makes of the journal (R361): records that had taken effect since the generation are applied again at
their stamps; edges that became eligible since, or are to, leave the queue until the decision that their record names. -/
def Half.rearmJournal (x : Half) (g : Snap) : Half :=
  let since (r : JRec) : Bool := (r.done || r.isEdge) && !g.jdone.contains r.jseq
  { x with
    run := { x.run with ext := (g.ext.filter (fun e => e.jseq.all (fun n => g.jdone.contains n))).map (fun e => { e with step := 0 }) }
    asr := { x.asr with journal := x.asr.journal.map (fun r => { r with redo := since r }) } }

/-- A decision (R181, R342, R361): the record of an edge that is eligible for the first time takes the decision's cycle as
its stamp. In replay the edges stamped with it enter the queue again; after replay the others do. -/
def Half.admitEdges (x : Half) (now : Nat) : Half :=
  x.asr.journal.foldl (fun y r =>
    match r.body with
    | .extEdge f =>
      if r.redo then
        if !r.done && x.replaying || r.done && x.replaying && decide (x.run.cyc.toNat < r.cyc.toNat) then y
        else
          let z : Half := { y with run := { y.run with ext := y.run.ext ++ [⟨⟨r.src, f⟩, 0, some r.jseq⟩] } }
          z.setRec r.jseq (fun q => { q with redo := false, done := true, cyc := if q.done then q.cyc else x.run.cyc })
      else if r.conf && !r.done && decide (r.minStep < now) && !x.replaying then
        y.setRec r.jseq (fun q => { q with done := true, cyc := x.run.cyc })
      else y
    | _ => y) x

/-- The registers that show the generations (R375, R377). -/
def Half.showGens (x : Half) : Half :=
  match x.asr.gens with
  | g :: l =>
    let o := match l with
      | o :: _ => o.gen
      | [] => g.gen
    ((x.setReg Reg.asrGenNew (BitVec.ofNat 32 g.gen)).setReg Reg.asrGenOld (BitVec.ofNat 32 o)).setReg64
      Reg.asrGenCycLo Reg.asrGenCycHi g.cyc.toNat
  | [] => x

/-- Pages of 64 KiB of design-owned HBM that differ between two generations (R353). -/
def Half.changedPages (x : Half) (a b : List Host.Cell) : Nat :=
  let f (m n : List Host.Cell) : List Nat :=
    ((m.filter (fun (c : Host.Cell) => decide (hbmBase ≤ c.1) && decide (c.1 < 0x1C00000000) && x.hbmOwned c.1 && rdByte n c.1 != c.2)).map
      (fun c => c.1 / 65536))
  (f a b ++ f b a).eraseDups.length

/-- The commit of a new generation (R352 to R354): the newest two are kept, unless the undo set overflows; the journal is
kept from the MARK of the older one, with the earlier ones that had not yet taken effect there. -/
def Half.commitGen (x : Half) (g : Snap) : Half :=
  let (older, single) := match x.asr.gens with
    | o :: _ => if x.rfld Reg.asrUndo 0 16 * 16 < x.changedPages o.mem g.mem then ([], true) else ([o], false)
    | [] => ([], false)
  let oldest := match older with
    | o :: _ => o
    | [] => g
  let y := { x with
    asr := { x.asr with
      gens := g :: older, phase := none, fresh := none, st := if x.asr.st == AsrState.starting then .active else x.asr.st
      journal := x.asr.journal.filter (fun r => decide (oldest.mark ≤ r.jseq) || !oldest.jdone.contains r.jseq) }
    eng := { x.eng with evB8 := x.eng.evB8 ++ [270] } }
  (y.setRBit Reg.asrStatus 17 single).showGens

/-- A checkpoint fails (R352): event 271 at the next B8, CKPT_FAIL; the retained generations stay. -/
def Half.failCkpt (x : Half) : Half :=
  ({ x with asr := { x.asr with phase := none, fresh := none }
            eng := { x.eng with evB8 := x.eng.evB8 ++ [271] } }).asrEvt 0

/-- The number of the next generation (R350). -/
def Half.nextGen (x : Half) : Nat :=
  match x.asr.gens with
  | g :: _ => (g.gen + 1) % 2 ^ 32
  | [] => 0

/-- The copy begins: the state is as it stands at the stall point (R352). -/
def Half.beginCkpt (x : Half) : Half :=
  { x with asr := { x.asr with phase := some .copying, fresh := some (x.snap x.nextGen), ckptCyc := some x.run.cyc } }

/-- A scheduled checkpoint is due at the boundary of the present cycle and has not been begun there (R350). -/
def Half.ckptDue (x : Half) : Bool :=
  x.asr.active && !x.replaying && decide ((x.run.cyc.toNat + 1) % 2 ^ x.rfld Reg.asrCtrl 8 6 = 0) &&
  x.asr.ckptCyc != some x.run.cyc && (x.asr.phase.isNone || x.asr.phase == some .asked)

/-- Generation 0 is in the making: the first tick waits for its copy (R350). -/
def Half.ckptCopying (x : Half) : Bool := x.asr.phase == some .copying

/-- The partner's mirrors of the journal and the generations (R345, R352). -/
def State.mirrorAsr (s : State) (h : HalfId) : State :=
  let x := s.half h
  s.upd (otherHalf h) (fun y => { y with asr := { y.asr with
    mGens := x.asr.gens, mJrnl := x.asr.journal.filter (fun r => r.conf), mRegs := keepKeys isMirrored x.regs
    mImg := (x.asr.imgCrc, x.asr.buildId) } })

/-- In PAIRED the lead half journals every input and both halves hold identical rings (R345). -/
def State.sameJournal (s : State) (h : HalfId) : State :=
  let x := s.half h
  if s.paired h && x.run.mode == .paired && x.run.lead then
    s.upd (otherHalf h) (fun y => { y with asr := { y.asr with
      journal := x.asr.journal, jseq := x.asr.jseq, jpos := x.asr.jpos, waiting := x.asr.waiting, gates := x.asr.gates } })
  else s

end Sys2Proof.Machine
end

