-- ==== Sys2Proof/Machine/Sha.lean ====
section
/-!
DEFINITION. Machine/Sha.lean: SHA-384 (FIPS 180-4), which the specification names in R577 to R595 and does not define
itself (log entry 9).

The constants of the hash are the first 64 bits of the fractional parts of roots of primes, and are computed here as such.
-/

namespace Sys2Proof.Machine

/-! ## Constants -/

/-- The greatest `r` below `2 ^ n` above `low` with `r ^ k ≤ v`, found bit by bit. -/
def rootBits (k v : Nat) : Nat → Nat → Nat
  | 0, low => low
  | n + 1, low => rootBits k v n (if (low + 2 ^ n) ^ k ≤ v then low + 2 ^ n else low)

/-- The first 64 bits of the fractional part of the `k`th root of `p`. -/
def rootFrac (k p : Nat) : DWord := BitVec.ofNat 64 (rootBits k (p * 2 ^ (64 * k)) 69 0)

/-- The primes below `n`, ascending. -/
def primesBelow (n : Nat) : List Nat := (List.range n).filter (fun p => decide (1 < p) && !(List.range p).any (fun d => decide (1 < d) && p % d == 0))

/-- The round constants: cube roots of the first eighty primes. -/
def shaSteps : List DWord := (primesBelow 410).map (rootFrac 3)

/-! ## The compression of a block -/

/-- The eight words of a hash value, as they move through a round. -/
structure ShaVars where
  a : DWord
  b : DWord
  c : DWord
  d : DWord
  e : DWord
  f : DWord
  g : DWord
  h : DWord
  deriving DecidableEq, Repr

/-- The words in order. -/
def ShaVars.list (v : ShaVars) : List DWord := [v.a, v.b, v.c, v.d, v.e, v.f, v.g, v.h]

/-- Word by word sums. -/
def ShaVars.add (v w : ShaVars) : ShaVars :=
  ⟨v.a + w.a, v.b + w.b, v.c + w.c, v.d + w.d, v.e + w.e, v.f + w.f, v.g + w.g, v.h + w.h⟩

/-- The initial value: square roots of the ninth to the sixteenth prime, 23 to 53. -/
def ShaVars.init : ShaVars :=
  ⟨rootFrac 2 23, rootFrac 2 29, rootFrac 2 31, rootFrac 2 37, rootFrac 2 41, rootFrac 2 43, rootFrac 2 47, rootFrac 2 53⟩

/-- The XOR of a word turned right by each of some amounts. -/
def turned (x : DWord) (by_ : List Nat) : DWord := by_.foldl (fun y n => y ^^^ x.rotateRight n) 0#64

/-- A round takes the schedule word `w` and its constant `k`. -/
def ShaVars.round (v : ShaVars) (k w : DWord) : ShaVars :=
  let pick := v.g ^^^ (v.e &&& (v.f ^^^ v.g))
  let most := (v.a &&& v.b) ||| (v.c &&& (v.a ||| v.b))
  let n := v.h + turned v.e [14, 18, 41] + pick + k + w
  { a := n + turned v.a [28, 34, 39] + most, b := v.a, c := v.b, d := v.c, e := v.d + n, f := v.e, g := v.f, h := v.g }

/-- The word that follows sixteen words of the schedule. -/
def shaFollows (ws : List DWord) : DWord :=
  let at_ (i : Nat) : DWord := ws.getD i 0#64
  at_ 0 + (turned (at_ 1) [1, 8] ^^^ (at_ 1 >>> 7)) + at_ 9 + (turned (at_ 14) [19, 61] ^^^ (at_ 14 >>> 6))

/-- The rounds of a block; the schedule is a window of sixteen words that moves on by one in each. -/
def shaRounds : List DWord → List DWord → ShaVars → ShaVars
  | [], _, v => v
  | k :: ks, ws, v => shaRounds ks (ws.drop 1 ++ [shaFollows ws]) (v.round k (ws.headD 0#64))

/-! ## The hash -/

/-- The `n` big-endian bytes of a number. -/
def beBytes (n v : Nat) : Bytes := (leBytes n v).reverse

/-- A big-endian number from bytes. -/
def beNat (bs : Bytes) : Nat := leNat bs.reverse

/-- The hash value after `n` blocks of 128 bytes. -/
def shaAfter : Nat → Bytes → ShaVars → ShaVars
  | 0, _, v => v
  | n + 1, bs, v =>
    let ws := (List.range 16).map (fun i => BitVec.ofNat 64 (beNat ((bs.drop (8 * i)).take 8)))
    shaAfter n (bs.drop 128) (v.add (shaRounds shaSteps ws v))

/-- The number of zero bytes between the mark after a message of `n` bytes and its 16-byte length. -/
def shaGap (n : Nat) : Nat := 127 - (n + 16) % 128

/-- SHA-384 of a byte string, 48 bytes. -/
def sha384 (m : Bytes) : Bytes :=
  let all := m ++ 0x80#8 :: zeros (shaGap m.length) ++ beBytes 16 (8 * m.length)
  ((shaAfter (all.length / 128) all ShaVars.init).list.flatMap (fun w => beBytes 8 w.toNat)).take 48

end Sys2Proof.Machine
end

