-- ==== Sys2Proof/Machine/Measure.lean ====
section
/-!
DEFINITION. Machine/Measure.lean: the measurement slots (R577, R579, R601).
-/

namespace Sys2Proof.Machine

/-- The 48 bytes of slot MSk, as `SEC_MS_k_w` shows them (R601). -/
def Half.msBytes (x : Half) (k : Nat) : Bytes := (List.range 12).flatMap (fun w => leBytes 4 (x.reg (Reg.secMs k w)).toNat)

/-- Set slot MSk. -/
def Half.setMs (x : Half) (k : Nat) (bs : Bytes) : Half :=
  (List.range 12).foldl (fun y w => y.setReg (Reg.secMs k w) (BitVec.ofNat 32 (leNat ((bs.drop (4 * w)).take 4)))) x

/-- Extend slot MSk with a digest (R577): MSk ← SHA-384(MSk ‖ D), and its count goes up by 1. After TAMPER the slots stay
at zero until the next reset of reach Half (R580). -/
def Half.extendMs (x : Half) (k : Nat) (d : Bytes) : Half :=
  if x.sec.tampered then x
  else (x.setMs k (sha384 (x.msBytes k ++ d))).setReg (Reg.secMsCnt k) (x.reg (Reg.secMsCnt k) + 1#32)

/-- Every slot at 48 zero bytes and its count 0 (R577, R580). -/
def Half.zeroMs (x : Half) : Half :=
  (List.range 8).foldl (fun y k => (y.setMs k (zeros 48)).setReg (Reg.secMsCnt k) 0#32) x

end Sys2Proof.Machine
end

