-- ==== Sys2Proof/Machine/Fabric.lean ====
section
/-!
DEFINITION. Machine/Fabric.lean: the adapter fabric: bitstreams and releases, long lines, oscillators, the embedded
flash, cycle channels and the other ports (R381 to R427).
-/

namespace Sys2Proof.Machine

/-! ## Status and events (R420, R422) -/

/-- A bit of `AFB_EVT` sets. -/
def Half.afbEvt (x : Half) (bit : Nat) : Half :=
  if x.rbit Reg.afbEvt bit then x else (x.setRBit Reg.afbEvt bit true).irq Reg.afbIrq

/-- STATE: 0 BLANK, 1 LOADING, 2 CONFIGURED, 3 RELEASING, 4 ACTIVE, 5 FAILED. -/
def Half.fabState (x : Half) : Nat := x.rfld Reg.afbStatus 28 4
def Half.setFabState (x : Half) (c : Nat) : Half := x.setRFld Reg.afbStatus 28 4 c

/-- A load ends with a code (R399). -/
def Half.loadDone (x : Half) (code : Nat) : Half := (x.setRFld Reg.afbStatus 20 8 code).afbEvt 0

/-- Every column. -/
def allCols : Nat := 2 ^ 96 - 1

/-- A set of columns without those of another. -/
def colsMinus (a b : Nat) : Nat := a &&& (allCols ^^^ (b % 2 ^ 96))

/-! ## Bitstreams (R393, R394) -/

/-- A word of the embedded flash (R402), and whether it can be read. -/
def Half.flashWord (x : Half) (w : Nat) : DWord × Bool :=
  let busy := match x.fab.flCmd with
    | some (op, v) => op != 3 && v / 8192 == w / 8192
    | none => false
  if busy || sget x.fab.flBad w false then (0#64, false)
  else ((sget x.fab.flash w none).getD (Config.flashErased (halfNum x.self) w (sget x.fab.erased (w / 8192) 0)), true)

/-- Bytes of the source of a load: flash or HBM. -/
def Half.fabBytes (x : Half) (flash : Bool) (a n : Nat) : Bytes :=
  if flash then
    (((List.range (n / 8 + 2)).flatMap (fun i => leBytes 8 (x.flashWord (a / 8 + i)).1.toNat)).drop (a % 8)).take n
  else rdBytes x.soundMem (hbmBase + a) n

/-- The header of a bitstream (R393). -/
structure BsHead where
  db     : Nat
  flags  : Nat
  gap    : Nat
  chans  : Nat
  frames : Nat
  cols   : Nat
  crc    : Nat
  deriving DecidableEq, Repr

/-- The header that 64 bytes spell. -/
def bsHead (b : Bytes) : BsHead :=
  { db := bn b 0 4, flags := bn b 4 4, gap := bn b 8 1, chans := bn b 9 1, frames := bn b 0x0C 4, cols := bn b 0x10 12,
    crc := bn b 0x1C 4 }

/-- The size of the bitstream. -/
def BsHead.size (h : BsHead) : Nat := 64 + 16 * h.chans + 136 * h.frames

/-- Every field in range (R393): channels only in an image, a full bitstream with every column. -/
def bsShape (b : Bytes) (h : BsHead) (image part : Bool) : Bool :=
  decide (h.flags < 4) && decide (4 ≤ h.gap) && decide (h.chans ≤ 32) && (image || h.chans == 0) &&
  decide (1 ≤ h.frames) && decide (h.frames ≤ 65536) && (part || h.cols == allCols) && bn b 0x0A 2 == 0 &&
  ((b.drop 0x20).take 32).all (fun v => v == 0#8)

/-- The frames of a bitstream. -/
def bsFrames (b : Bytes) : Nat → List Bytes
  | 0 => []
  | n + 1 => b.take 136 :: bsFrames (b.drop 136) n

/-- TYPE, COLUMN and MINOR of a frame. -/
def frType (f : Bytes) : Nat := bn f 4 1
def frCol (f : Bytes) : Nat := bn f 2 1
def frMinor (f : Bytes) : Nat := bn f 0 2

/-- The key of a frame in the configuration memory. -/
def frKey (f : Bytes) : Nat := frType f * 2 ^ 24 + frCol f * 2 ^ 16 + frMinor f

/-- Mode of site `s` in the data of a LONG frame (R387, R394). -/
def siteMode (data : Bytes) (s : Nat) : Nat := natField (leNat ((data.drop (s / 4)).take 1)) (2 * (s % 4)) 2

/-- Sites in columns of a region that drive at all times. -/
def staticSites (data : Bytes) (cols : Nat) : Nat :=
  ((List.range 192).filter (fun s => natBit cols (s / 2) && siteMode data s == 1)).length

/-- The checks of one frame (R394, R399). -/
def frameOk (f : Bytes) (part : Bool) (cols : Nat) : Bool :=
  let t := frType f
  let c := frCol f
  bn f 3 1 == 0 &&
  (if t ≤ 3 then decide (c ≤ 95) && (!part || natBit cols c)
   else if t = 4 then
     c == 0xFF && decide (frMinor f ≤ 63) &&
     (List.range 192).all (fun s => siteMode (f.drop 8) s != 3) && ((f.drop 56).take 80).all (fun v => v == 0#8)
   else decide (t ≤ 6) && c == 0xFF)

/-- The key of the LONG frame of a line. -/
def longKey (line : Nat) : Nat := 4 * 2 ^ 24 + 0xFF * 2 ^ 16 + line

/-- What an unlisted frame holds. -/
def blankFrame : Bytes := zeros 128

/-- The data of a LONG frame with the sites in region columns taken from `new` (R394). -/
def mergeLong (cols : Nat) (old new : Bytes) : Bytes :=
  (List.range 128).map (fun i =>
    let o := ((old[i]?).getD 0#8).toNat
    let n := ((new[i]?).getD 0#8).toNat
    -- byte i holds sites 4i to 4i + 3, in columns 2i and 2i + 1
    BitVec.ofNat 8 ((if natBit cols (2 * i) then n % 16 else o % 16) + 16 * (if natBit cols (2 * i + 1) then n / 16 else o / 16)))

/-- The configuration with the region blank: every table 0, every site OFF (R399). -/
def blankRegion (fr : SMap Bytes) (cols : Nat) : SMap Bytes :=
  let kept := keepKeys (fun k => !(decide (k / 2 ^ 24 ≤ 3) && natBit cols (k / 2 ^ 16 % 256))) fr
  (List.range 64).foldl (fun m l =>
    sput m (longKey l) blankFrame (mergeLong cols (sget m (longKey l) blankFrame) blankFrame)) kept

/-- The configuration after the frames of a load. -/
def writeFrames (fr : SMap Bytes) (cols : Nat) (fs : List Bytes) : SMap Bytes :=
  fs.foldl (fun m f =>
    let d := (f.drop 8).take 128
    sput m (frKey f) blankFrame
      (if frType f = 4 then mergeLong cols (sget m (frKey f) blankFrame) d else d)) fr

/-- What a configuration says (R394): its device database's reading; nothing where every frame is blank. -/
def fabNetlist (db : Nat) (fr : SMap Bytes) : Netlist := if fr.isEmpty then Netlist.blank else Config.netlist db fr

/-- A RAM block of the region has a port with the reserved ON_WRITE (R384). -/
def ramRefused (db : Nat) (fr : SMap Bytes) (cols : Nat) : Bool :=
  (fabNetlist db fr).rams.any (fun (e : Nat × RamCfg) =>
    natBit cols (e.1 / 8) && (decide (3 ≤ e.2.a.onWrite) || decide (3 ≤ e.2.b.onWrite)))

/-- A line with two STATIC sites (R387). -/
def longBreach (fr : SMap Bytes) : Bool :=
  (List.range 64).any (fun l => decide (2 ≤ staticSites (sget fr (longKey l) blankFrame) allCols))

/-- The outcome of the checks of a bitstream (R399): the failure code, or the new configuration. The checks are made in the
order shape, database, frames, long lines, CRC (log entry 10). -/
def bsCheck (fr : SMap Bytes) (b : Bytes) (h : BsHead) (image part : Bool) : Nat ⊕ SMap Bytes :=
  let cols := if part then h.cols else allCols
  let body := b.drop (64 + 16 * h.chans)
  let fs := bsFrames body h.frames
  if !bsShape b h image part then .inl 0x54
  else if !Config.dbSupported h.db then .inl 0x51
  else if !fs.all (fun f => frameOk f part cols) then .inl 0x52
  else
    let fr' := writeFrames (blankRegion fr cols) cols fs
    if ramRefused h.db fr' cols then .inl 0x52
    else if longBreach fr' then .inl 0x53
    else if (crc32c (body.take (136 * h.frames))).toNat != h.crc then .inl 0x50
    else .inr fr'

/-! ## Loading and release (R395 to R400) -/

/-- The columns of a region are held (R397). -/
def Half.holdCols (x : Half) (cols : Nat) : Half :=
  { x with fab := { x.fab with
    outs := colsMinus x.fab.outs cols, live := colsMinus x.fab.live cols, ffs := colsMinus x.fab.ffs cols } }

/-- A release begins (R398). -/
def Half.startRelease (x : Half) (cols : Nat) : Half :=
  ({ x with fab := { x.fab with rel := some (1, cols) } } : Half).setFabState 3

/-- Drivers of region sites that a load reconfigures are no longer disabled (R388). -/
def Half.relinkLines (x : Half) (cols : Nat) : Half :=
  (List.range 64).foldl (fun y l =>
    let m := sget y.fab.llOff l 0
    let m' := ((List.range 192).filter (fun s => natBit m s && !natBit cols (s / 2))).foldl (fun a s => a + 2 ^ s) 0
    let z := { y with fab := { y.fab with llOff := sput y.fab.llOff l 0 m' } }
    if m' = 0 then z.setRBit (if l < 32 then Reg.afbLlDisLo else Reg.afbLlDisHi) (l % 32) false else z) x

/-- A load that has passed its checks commits (R396): the fabric is CONFIGURED, and releases if AUTO_RELEASE is 1. -/
def Half.fabCommit (x : Half) (h : BsHead) (fr : SMap Bytes) (part auto : Bool) : Half :=
  let cols := if part then h.cols else allCols
  let y := ({ x with fab := { x.fab with frames := fr, db := h.db, load := none } } : Half).relinkLines cols
  let y := (y.setRFld Reg.afbCtrl 8 8 h.gap).setFabState 2
  let y := if part then y else y.setRBit Reg.afbStatus 1 (natBit h.flags 0)
  let z := y.loadDone 0x0B
  -- a region that was CONFIGURED and not yet released goes with this one
  let cols := match x.fab.rel with
    | some (0, c) => cols ||| c
    | _ => cols
  if auto || natBit h.flags 1 then z.startRelease cols else { z with fab := { z.fab with rel := some (0, cols) } }

/-- A load ends with its region blank (R399, R400). -/
def Half.fabFail (x : Half) (cols : Nat) (part : Bool) (code : Nat) : Half :=
  let y := ({ x with fab := { x.fab with frames := blankRegion x.fab.frames cols, load := none, gsr := false } } : Half).relinkLines cols
  let y := if part then y else y.setRBit Reg.afbStatus 1 false
  (y.setFabState (if part then 4 else 5)).loadDone code

/-- A master that may write `AFB_CTRL` (R395). -/
def afbMaster (m : Master) : Bool := m == .seq || m == .stw

/-- A load is asked for (R395): its bitstream is measured (R579) and its region held (R397). -/
def Half.startLoad (x : Half) : Half :=
  if x.fabState = 1 ∨ x.fabState = 3 then x.setRFld Reg.afbStatus 20 8 0x01
  else
    let flash := x.rbit Reg.afbLoadCfg 0
    let part := x.rbit Reg.afbLoadCfg 1
    let a := (x.reg Reg.afbLoadLo).toNat + (if flash then 0 else x.rfld Reg.afbLoadHi 0 8 * 2 ^ 32)
    let limit := if flash then 0x200000 else 0xC00000000
    let hb := x.fabBytes flash a 64
    let h := bsHead hb
    let cols := if part then h.cols else allCols
    let inside := decide (a + 64 ≤ limit) && bsShape hb h false part && decide (a + h.size ≤ limit)
    let x := if flash then x else x.noteReads (hbmBase + a) (if inside then h.size else 64)
    let y := if inside then x.extendMs 5 (sha384 (x.fabBytes flash a h.size)) else x
    let v : FabLoad := { flash := flash, addr := a, part := part, auto := x.rbit Reg.afbLoadCfg 2, cols := cols }
    (({ y with fab := { y.fab with load := some v, gsr := natBit h.flags 0 || y.fab.gsr } } : Half).holdCols cols).setFabState 1

/-- STAGE_GAP of a write of `AFB_CTRL`. -/
def Half.stageGap (x : Half) (v : Word) : Half := x.setRFld Reg.afbCtrl 8 8 (fld v 8 8)

/-- LOAD (R395, R419). From a master other than the sequencer and the steward it
completes with an error and has no effect. -/
def execFabricLoad (h : HalfId) (m : Master) (v : Word) (s : State) : Host.Outcome State Fault Refusal :=
  .next (s.byMaster h m (fun s => if afbMaster m then s.upd h (fun x => (x.stageGap v).startLoad) else s.upd h (fun x => x.writeErr m 2#2)))

/-- What a load leaves that reads the embedded flash: an uncorrectable word reads 0 and sets ECC_UNCORR (R402). -/
def Half.noteFlash (x : Half) (l : FabLoad) (n : Nat) : Half :=
  if l.flash && (List.range (n / 8 + 1)).any (fun i => !(x.flashWord (l.addr / 8 + i)).2) then x.setRBit Reg.afbFlStat 3 true else x

/-- The end of a load in progress (R396, R399). -/
def Half.finishLoad (x : Half) : Half :=
  match x.fab.load with
  | none => x
  | some l =>
    let limit := if l.flash then 0x200000 else 0xC00000000
    if limit < l.addr + 64 then x.fabFail l.cols l.part 0x54
    else
      let h := bsHead (x.fabBytes l.flash l.addr 64)
      if limit < l.addr + h.size then x.fabFail l.cols l.part 0x54
      else
        let y := x.noteFlash l h.size
        match bsCheck x.fab.frames (x.fabBytes l.flash l.addr h.size) h false l.part with
        | .inl c => y.fabFail l.cols l.part c
        | .inr fr => y.fabCommit h fr l.part l.auto

/-- FABRIC_LOAD_COMMIT (R396, R399). -/
def execFabricLoadCommit (h : HalfId) (s : State) : Host.Outcome State Fault Refusal := .next (s.upd h Half.finishLoad)

/-- A CONFIGURED fabric is released. -/
def Half.release (x : Half) : Half :=
  match x.fab.rel with
  | some (0, cols) => if x.fabState = 2 then x.startRelease cols else x
  | _ => x

/-- RELEASE (R396, R398). -/
def execFabricRelease (h : HalfId) (m : Master) (v : Word) (s : State) : Host.Outcome State Fault Refusal :=
  .next (s.byMaster h m (fun s => if afbMaster m then s.upd h (fun x => (x.stageGap v).release) else s.upd h (fun x => x.writeErr m 2#2)))

/-- The next stage of a release (R398): outputs, then write enables, then flip-flops, then ACTIVE. -/
def Half.releaseNext (x : Half) : Half :=
  match x.fab.rel with
  | some (1, c) => { x with fab := { x.fab with outs := x.fab.outs ||| c, rel := some (2, c) } }
  | some (2, c) => { x with fab := { x.fab with live := x.fab.live ||| c, rel := some (3, c) } }
  | some (3, c) => { x with fab := { x.fab with ffs := x.fab.ffs ||| c, gsr := false, rel := some (4, c) } }
  | some (4, _) => ({ x with fab := { x.fab with rel := none } } : Half).setFabState 4
  | _ => x

/-- FABRIC_RELEASE_STAGE (R398). -/
def execFabricReleaseStage (h : HalfId) (s : State) : Host.Outcome State Fault Refusal := .next (s.upd h Half.releaseNext)

/-- An abort (R400): before the commit point it stops the load; from the commit point to the end of the release that follows
it is late. -/
def Half.fabAbort (x : Half) : Half :=
  let (code, y) := match x.fab.load with
    | some l => (0x0C, x.fabFail l.cols l.part 0x0C)
    | none => (if x.fabState = 2 ∨ x.fabState = 3 then 0x0D else 0x01, x)
  (y.setRFld Reg.afbStatus 12 8 code).afbEvt 1

/-- AFB_ABORT (R400). -/
def execAfbAbort (h : HalfId) (m : Master) (v : Word) (s : State) : Host.Outcome State Fault Refusal :=
  .next (s.byMaster h m (fun s => if afbMaster m then s.upd h (fun x => (x.stageGap v).fabAbort) else s.upd h (fun x => x.writeErr m 2#2)))

/-- A write of `AFB_CTRL` as a register (R419): LOAD, RELEASE, ABORT, in ascending bits. -/
def Half.afbCtrlWrite (x : Half) (v : Word) : Half :=
  ((((x.stageGap v).when (wbit v 0) Half.startLoad).when (wbit v 1) Half.release).when (wbit v 2) Half.fabAbort)

/-! ## Long lines (R387, R388, R423) -/

/-- The drivers of a line that can be enabled: configured, released and not disabled. -/
def Half.drivers (x : Half) (line sites : Nat) : List Nat :=
  let d := sget x.fab.frames (longKey line) blankFrame
  (List.range 192).filter (fun s =>
    natBit sites s && siteMode d s != 0 && natBit x.fab.outs (s / 2) && !natBit (sget x.fab.llOff line 0) s)

/-- Contention on a line (R388): every enabled driver is disabled. -/
def Half.contend (x : Half) (line sites : Nat) : Half :=
  let ds := x.drivers line sites
  if ds.length < 2 then x
  else
    let m := ds.foldl (fun a s => a + 2 ^ s) (sget x.fab.llOff line 0)
    let y := { x with fab := { x.fab with llOff := sput x.fab.llOff line 0 m } }
    let y := y.setRBit (if line < 32 then Reg.afbLlDisLo else Reg.afbLlDisHi) (line % 32) true
    let y := if y.rfld Reg.afbLlCont 16 16 = 0 then y.setRFld Reg.afbLlCont 0 6 line else y
    (y.countFld Reg.afbLlCont 16 16 1).afbEvt 2

/-- LONG_LINE_CONTENTION (R388); `sites` are the drivers enabled at one edge. -/
def execLongLineContention (h : HalfId) (line : BitVec 6) (sites : BitVec 192) (s : State) :
    Host.Outcome State Fault Refusal := .next (s.upd h (fun x => x.contend line.toNat sites.toNat))

/-- A write of `AFB_LL_DIS` (R423). -/
def Half.llDisWrite (x : Half) (hi : Bool) (v : Word) : Half :=
  (List.range 32).foldl (fun y i =>
    if wbit v i then
      ({ y with fab := { y.fab with llOff := sput y.fab.llOff (i + (if hi then 32 else 0)) 0 0 } } : Half).setRBit
        (if hi then Reg.afbLlDisHi else Reg.afbLlDisLo) i false
    else y) x

/-- AFB_LL_DIS_WRITE (R388, R423). -/
def execAfbLlDisWrite (h : HalfId) (m : Master) (hi : Bool) (v : Word) (s : State) : Host.Outcome State Fault Refusal :=
  .next (s.byMaster h m (fun s => s.upd h (fun x => x.llDisWrite hi v)))

/-- A write of `AFB_EVT` (R422): clearing CONTENTION clears `AFB_LL_CONT`. -/
def Half.afbEvtWrite (x : Half) (v : Word) : Half :=
  let y := x.setReg Reg.afbEvt (x.reg Reg.afbEvt &&& ~~~v)
  if wbit v 2 then y.setReg Reg.afbLlCont 0#32 else y

/-! ## Oscillators (R401, R425) -/

/-- A write of `AFB_OSC_k`: a change of FREQ_KHZ, or of EN to 1, drops LOCKED; so does EN = 0. -/
def Half.oscWrite (x : Half) (k : Nat) (v : Word) : Half :=
  let old := x.reg (Reg.afbOsc k)
  let y := x.setReg (Reg.afbOsc k) v
  if fld v 12 19 != fld old 12 19 || !wbit v 31 || !wbit old 31 then y.setRBit Reg.afbStatus (4 + k) false else y

/-- OSC_LOCK (R401): an oscillator that is on, at a frequency in range, locks. -/
def execOscLock (h : HalfId) (k : BitVec 2) (s : State) : Host.Outcome State Fault Refusal :=
  .next (s.upd h (fun x =>
    let f := x.rfld (Reg.afbOsc k.toNat) 12 19
    if x.rbit (Reg.afbOsc k.toNat) 31 && decide (20000 ≤ f) && decide (f ≤ 400000) then
      x.setRBit Reg.afbStatus (4 + k.toNat) true
    else x))

/-- TRIM_PORT_WRITE (R401): fabric logic that is released writes TRIM. -/
def execTrimPortWrite (h : HalfId) (k : BitVec 2) (trim : BitVec 12) (s : State) : Host.Outcome State Fault Refusal :=
  .next (s.upd h (fun x => if x.fab.live != 0 then x.setRFld (Reg.afbOsc k.toNat) 0 12 trim.toNat else x))

/-! ## Embedded flash (R402, R426) -/

/-- A flash command is given: refused while one is in progress. -/
def Half.flashCmd (x : Half) (op : Nat) : Half :=
  let y := x.setRFld Reg.afbFlCmd 0 2 0
  if x.rbit Reg.afbFlStat 0 then y.setRBit Reg.afbFlStat 2 true
  else ({ y with fab := { y.fab with flCmd := some (op, x.rfld Reg.afbFlAddr 3 18) } } : Half).setRBit Reg.afbFlStat 0 true

/-- A master that reaches the flash commands: through `AFB_FL_CMD`, or released fabric logic through its command port. -/
def State.flashBy (s : State) (h : HalfId) (m : Master) (op : Nat) : State :=
  if m = .afb then s.upd h (fun x => if x.fab.live = 0 then x else x.flashCmd op)
  else s.byMaster h m (fun s => s.upd h (fun x => x.flashCmd op))

/-- PROGRAM (R402, R426). -/
def execFlashProgram (h : HalfId) (m : Master) (s : State) : Host.Outcome State Fault Refusal :=
  .next (s.flashBy h m 1)

/-- ERASE (R402, R426). -/
def execFlashErase (h : HalfId) (m : Master) (s : State) : Host.Outcome State Fault Refusal :=
  .next (s.flashBy h m 2)

/-- READ (R402, R426). -/
def execFlashRead (h : HalfId) (m : Master) (s : State) : Host.Outcome State Fault Refusal :=
  .next (s.flashBy h m 3)

/-- What a flash command does at its end. A word programmed twice without an erasure takes an open value. -/
def Half.flashDo (x : Half) (op w : Nat) : Half :=
  match op with
  | 1 =>
    let put (y : Half) (v : DWord) : Half :=
      { y with fab := { y.fab with flash := sput y.fab.flash w none (some v), flBad := sput y.fab.flBad w false false } }
    match sget x.fab.flash w none with
    | none => put x (BitVec.ofNat 64 (x.reg64 Reg.afbFlDataLo Reg.afbFlDataHi))
    | some _ => let (v, y) := x.fresh 64; put y v
  | 2 =>
    let sec := w / 8192
    { x with fab := { x.fab with
      flash := keepKeys (fun k => k / 8192 != sec) x.fab.flash, flBad := keepKeys (fun k => k / 8192 != sec) x.fab.flBad
      erased := sput x.fab.erased sec 0 (sget x.fab.erased sec 0 + 1) } }
  | _ =>
    let (v, ok) := x.flashWord w
    let y := x.setReg64 Reg.afbFlDataLo Reg.afbFlDataHi v.toNat
    if ok then y else y.setRBit Reg.afbFlStat 3 true

/-- FLASH_COMMAND_DONE (R402): the command in progress ends. -/
def execFlashCommandDone (h : HalfId) (s : State) : Host.Outcome State Fault Refusal :=
  .next (s.upd h (fun x =>
    match x.fab.flCmd with
    | some (op, w) =>
      let y := x.flashDo op w
      (({ y with fab := { y.fab with flCmd := none } } : Half).setRBit Reg.afbFlStat 0 false).setRBit Reg.afbFlStat 1 true
    | none => x))

/-! ## Cycle channels (R406 to R413) -/

/-- Channel `k`. -/
def Half.chan (x : Half) (k : Nat) : Chan := sget x.fab.chan k Chan.zero
def Half.setChan (x : Half) (k : Nat) (c : Chan) : Half := { x with fab := { x.fab with chan := sput x.fab.chan k Chan.zero c } }

/-- Fields of a channel's declaration (R427). -/
def Half.chEn (x : Half) (k : Nat) : Bool := x.rbit (Reg.afbChCfg k) 31
def Half.chTile (x : Half) (k : Nat) : Nat := x.rfld (Reg.afbChCfg k) 25 6
def Half.chDom (x : Half) (k : Nat) : Nat := x.rfld (Reg.afbChCfg k) 17 8
def Half.chDepth (x : Half) (k : Nat) : Nat := 2 ^ x.rfld (Reg.afbChCfg k) 12 4
def Half.chInFirst (x : Half) (k : Nat) : Nat := x.rfld (Reg.afbChBits k) 0 8
def Half.chInCount (x : Half) (k : Nat) : Nat := x.rfld (Reg.afbChBits k) 8 8

/-- The declared channels of a domain. -/
def Half.chansOf (x : Half) (dom : Nat) : List Nat := (List.range 32).filter (fun k => x.chEn k && x.chDom k == dom)

/-- The half takes slices, edges and doorbells of its fabric: in PAIRED only the lead half (R417). -/
def Half.fabLead (x : Half) : Bool := x.run.loaded != some .paired || x.run.lead

/-- With assured operation active the slices at the head of the queue go to the journal while it has room (R407). In
RECOVERING the queue stays (R413). -/
def Half.drainSlices (x : Half) (k : Nat) : List Nat → Half
  | [] => x
  | b :: q =>
    let r := x.jNew k (some (x.chDom k)) (.inputBits 1 (x.chTile k) (x.chInFirst k) (x.chInCount k) b)
    if x.asr.active && x.jOpen && x.jRoom r then
      ((x.jPut r).setChan k { x.chan k with queue := q }).drainSlices k q
    else x

/-- Every channel's queue is looked at. -/
def Half.drainChans (x : Half) : Half := (List.range 32).foldl (fun y k => y.drainSlices k (y.chan k).queue) x

/-- A slice is pushed (R407). -/
def Half.push (x : Half) (k bits : Nat) : Half :=
  if x.chEn k && x.fabLead && decide ((x.chan k).queue.length < 64) then
    let c := x.chan k
    let q := c.queue ++ [bits % 2 ^ x.chInCount k]
    (x.setChan k { c with queue := q }).drainSlices k q
  else (x.countFld (Reg.afbChStat k) 0 16 1).afbEvt 3

/-- CHANNEL_PUSH (R407, R417): from fabric logic whose pushes are on. -/
def execChannelPush (h : HalfId) (k : BitVec 5) (bits : BitVec 128) (s : State) : Host.Outcome State Fault Refusal :=
  .next (if (s.half h).fab.live = 0 then s else (s.upd h (fun x => x.push k.toNat bits.toNat)).sameJournal h)

/-- B9 with assured operation inactive (R407): each channel of the domain applies the slice at its head; in PAIRED the lead
half's slices reach both halves. -/
def State.chanB9 (s : State) (h : HalfId) (dom : Nat) : State :=
  let x := s.half h
  if x.asr.active || !x.fabLead then s
  else (x.chansOf dom).foldl (fun t k =>
    match ((t.half h).chan k).queue with
    | b :: q =>
      let t := t.upd h (fun y => y.setChan k { y.chan k with queue := q })
      let f (y : Half) : Half :=
        let z := y.setDin (inBits (x.chTile k) (x.chInFirst k) (x.chInCount k) b)
        { z with ar := { z.ar with chHit := sput z.ar.chHit k false true } }
      if (t.half h).run.mode = .paired then t.grp h f else t.upd h f
    | [] => t) s

/-- After the inputs of a boundary (R408): a channel that applied no slice now and did at the previous input commit clears
its strobe bits. -/
def Half.chanStrobe (x : Half) (dom : Nat) : Half :=
  (x.chansOf dom).foldl (fun y k =>
    let hit := sget y.ar.chHit k false
    let hot := sget y.ar.chHot k false
    let z := if !hit && hot then y.setDin (inBits (y.chTile k) (y.chInFirst k) (y.rfld (Reg.afbChCfg k) 4 8) 0) else y
    { z with ar := { z.ar with chHit := sput z.ar.chHit k false false, chHot := sput z.ar.chHot k false hit } }) x

/-- The acknowledged cycle; none while nothing is (R410). -/
def Half.fabHorizon (x : Half) : Option Nat :=
  let v := x.reg64 Reg.afbAckLo Reg.afbAckHi
  if v = 2 ^ 64 - 1 then none else some v

/-- The bytes of an output slice (R409). -/
def sliceBytes (cyc : DWord) (wseq : Nat) (replayed : Bool) (bits : Nat) : Bytes :=
  leBytes 8 cyc.toNat ++ leBytes 4 wseq ++ leBytes 1 (bitNat replayed) ++ zeros 3 ++ leBytes 16 bits

/-- Write SP7 (R409). -/
def Half.wrSp7 (x : Half) (off : Nat) (bs : Bytes) : Half :=
  (x.wrMemBytes (spAddr 7 + off) bs).eccClear (spAddr 7 + off) bs.length

/-- A channel samples its output bits at B7 (R409, R413). -/
def Half.chanSample (x : Half) (k : Nat) : Half :=
  let bits := x.doutNum (x.chTile k * 128 + x.rfld (Reg.afbChBits k) 16 8) (x.rfld (Reg.afbChBits k) 24 8)
  if x.rbit (Reg.afbChCfg k) 16 && sget x.ar.chLast k none == some bits then x
  else
    let y := { x with ar := { x.ar with chLast := sput x.ar.chLast k none (some bits) } }
    let past := match x.fabHorizon with
      | some n => decide (x.run.cyc.toNat ≤ n)
      | none => false
    if x.replaying && past then y
    else
      let w := (y.reg (Reg.afbChWseq k)).toNat
      let c := y.chan k
      let at_ := c.off + w % x.chDepth k * 32
      let ring := if c.ring.any (fun (e : DWord × Nat) => e.2 == w) then c.ring else c.ring ++ [(x.run.cyc, w)]
      let z := (y.setChan k { c with ring := ring }).setReg (Reg.afbChWseq k) (BitVec.ofNat 32 (w + 1))
      let bs := sliceBytes x.run.cyc w x.replaying bits
      if x.run.mode = .paired then { z with fab := { z.fab with held := z.fab.held ++ [(x.run.cyc, at_, bs)] } }
      else z.wrSp7 at_ bs

/-- B7 of a boundary: the channels of its domain. -/
def Half.chanB7 (x : Half) (dom : Nat) : Half := (x.chansOf dom).foldl Half.chanSample x

/-- The slices of cycles up to `n` whose signature comparison has passed are written (R409). -/
def Half.flushSlices (x : Half) (n : Nat) : Half :=
  let go (e : DWord × Nat × Bytes) : Bool := decide (e.1.toNat ≤ n)
  let y := (x.fab.held.filter go).foldl (fun y e => y.wrSp7 e.2.1 e.2.2) x
  { y with fab := { y.fab with held := y.fab.held.filter (fun e => !go e) } }

/-- Free slots of a channel's ring (R410). -/
def Half.chFree (x : Half) (k : Nat) : Nat := x.chDepth k - (x.chan k).ring.length

/-- B0 (R411): a channel of the domain with fewer than 2 free slots raises the hold. -/
def Half.chanB0 (x : Half) (dom : Nat) : Half :=
  let low := (x.chansOf dom).filter (fun k => decide (x.chFree k < 2))
  if low.isEmpty || x.run.state != .running then x
  else
    let q : HoldReq := (x.run.req).getD { code := 7, event := some 277, cyc := x.run.cyc, stop := false, auto := true }
    let y := { x with run := { x.run with req := some q }, fab := { x.fab with full := (x.fab.full ++ low).eraseDups } }
    y.afbEvt 4

/-- The channels that raised the hold have room again (R411). -/
def Half.chansEased (x : Half) : Bool := x.fab.full.all (fun k => decide (x.chDepth k / 2 ≤ x.chFree k))

/-- Slices of cycles up to `c` have been consumed (R410, R413). -/
def Half.ackSlices (x : Half) (c : Nat) : Half :=
  (List.range 32).foldl (fun y k =>
    let h := y.chan k
    let mine (e : DWord × Nat) : Bool := decide (e.1.toNat ≤ c)
    match (h.ring.filter mine).getLast? with
    | some e => y.setChan k { h with ring := h.ring.filter (fun e => !mine e), base := e.2 + 1 }
    | none => y) x

/-- An acknowledge is taken: the fabric's delivery horizon (R357, R410). -/
def Half.takeAck (x : Half) (c : Nat) : Half :=
  let y := (x.setReg64 Reg.afbAckLo Reg.afbAckHi c).ackSlices c
  if x.asr.active then y.setReg64 Reg.asrFabHznLo Reg.asrFabHznHi c else y

/-- An acknowledge that is not ignored. -/
def Half.ackTakes (x : Half) (c : Nat) : Bool :=
  decide (c < 2 ^ 64 - 1) && (match x.fabHorizon with
    | none => true
    | some n => decide (n < c))

/-- FABRIC_ACK (R410): in PAIRED only the lead half's is taken, and it frees slots in both halves. -/
def execFabricAck (h : HalfId) (c : BitVec 64) (s : State) : Host.Outcome State Fault Refusal :=
  let x := s.half h
  .next (if x.fab.live = 0 || !x.fabLead || !x.ackTakes c.toNat then s
    else if x.run.mode = .paired then s.grp h (fun y => y.takeAck c.toNat)
    else s.upd h (fun y => y.takeAck c.toNat))

/-- At a restore each channel goes back to the slice after its last acknowledged one (R413). -/
def Half.chansRestore (x : Half) : Half :=
  let y := (List.range 32).foldl (fun y k =>
    if y.chEn k then y.setReg (Reg.afbChWseq k) (BitVec.ofNat 32 (y.chan k).base) else y) x
  { y with fab := { y.fab with held := [], full := [] } }

/-- The declaration of a channel by its record (R406, R427). -/
def Half.declareChan (x : Half) (r : Bytes) : Half :=
  let k := bn r 0 1
  let cfg := 2 ^ 31 + bn r 1 1 * 2 ^ 25 + bn r 2 1 * 2 ^ 17 + bn r 3 1 % 2 * 2 ^ 16 + bn r 9 1 * 2 ^ 12 + bn r 6 1 * 16
  let bits := bn r 8 1 * 2 ^ 24 + bn r 7 1 * 2 ^ 16 + bn r 5 1 * 256 + bn r 4 1
  ((x.setReg (Reg.afbChCfg k) (BitVec.ofNat 32 cfg)).setReg (Reg.afbChBits k) (BitVec.ofNat 32 bits)).setChan k
    { Chan.zero with off := bn r 0x0C 4 }

/-- What a successful image load makes of the channels (R406, R418). -/
def Half.loadChans (x : Half) (recs : List Bytes) : Half :=
  let y := (List.range 32).foldl (fun y k =>
    (((y.setReg (Reg.afbChCfg k) 0#32).setReg (Reg.afbChBits k) 0#32).setReg (Reg.afbChStat k) 0#32).setReg
      (Reg.afbChWseq k) 0#32) x
  let y := { y with fab := { y.fab with chan := [], held := [], full := [] }
                    ar := { y.ar with chHit := [], chHot := [], chLast := [] } }
  recs.foldl Half.declareChan (y.setReg64 Reg.afbAckLo Reg.afbAckHi (2 ^ 64 - 1))

/-! ## Other ports (R415, R416) -/

/-- FABRIC_DOORBELL (R415): the doorbell of a bound queue pair; DB_CODE goes back to the port. -/
def execFabricDoorbell (h : HalfId) (q : BitVec 6) (tail : BitVec 16) (s : State) : Host.Outcome State Fault Refusal :=
  let x := s.half h
  .next (if x.fab.live = 0 || !x.qBound q.toNat then s
    else
      let t := s.txe h (fun y => y.ring q.toNat tail.toNat)
      t.upd h (fun y => y.emit (.dbCode q (BitVec.ofNat 4 (y.rfld (Reg.txeSqStat q.toNat) 0 4)))))

/-- FABRIC_REQUEST (R416): the code is latched and event 277 raised. -/
def execFabricRequest (h : HalfId) (code : BitVec 8) (s : State) : Host.Outcome State Fault Refusal :=
  .next (if (s.half h).fab.live = 0 then s
    else (s.upd h (fun x => ((x.setReg Reg.afbReq (BitVec.ofNat 32 (256 + code.toNat))).afbEvt 5).event 277)).settle)

end Sys2Proof.Machine
end

