-- ==== Sys2Proof/Machine/Pins.lean ====
section
/-!
DEFINITION. Machine/Pins.lean: pins, I/O cells, the function crossbar, debounce and design pin groups (R428 to R456).
-/

namespace Sys2Proof.Machine

/-! ## Functions (R434 to R437) -/

/-- The output functions that exist (R434). -/
def outFnOk (f : Nat) : Bool :=
  decide (f < 0x044) || (decide (0x048 ≤ f) && decide (f < 0x04C)) || (decide (0x050 ≤ f) && decide (f < 0x055)) ||
  (decide (0x060 ≤ f) && decide (f < 0x068)) || (decide (0x070 ≤ f) && decide (f < 0x076)) ||
  (decide (0x078 ≤ f) && decide (f < 0x07E)) || (decide (0x080 ≤ f) && decide (f < 0x084)) ||
  (decide (0x0C0 ≤ f) && decide (f < 0x300))

/-- The input functions that exist (R435). -/
def inFnOk (f : Nat) : Bool :=
  decide (f < 0x008) || (decide (0x010 ≤ f) && decide (f < 0x012)) || (decide (0x020 ≤ f) && decide (f < 0x028)) ||
  (decide (0x030 ≤ f) && decide (f < 0x032)) || (decide (0x038 ≤ f) && decide (f < 0x03C)) ||
  (decide (0x0C0 ≤ f) && decide (f < 0x300))

/-- Idle values: 1 for UART RX and the I²C lines (R435). -/
def inIdle (f : Nat) : Bool :=
  (decide (0x020 ≤ f) && decide (f < 0x028) && f % 2 == 0) || (decide (0x038 ≤ f) && decide (f < 0x03C))

/-- What an input function reads. -/
def Half.inFn (x : Half) (f : Nat) : Bool := (sget x.pins.inp f none).getD (inIdle f)

/-- A bit of a LO/HI pair of pin registers. -/
def Half.pinBit (x : Half) (r : Nat → Nat) (i : Nat) : Bool := x.rbit (r (i / 32)) (i % 32)
def Half.setPinBit (x : Half) (r : Nat → Nat) (i : Nat) (v : Bool) : Half := x.setRBit (r (i / 32)) (i % 32) v

/-- The level of timed pulse output `k` (R504): the active level while a pulse is in progress. -/
def Half.tpoLevel (x : Half) (k : Nat) : Bool :=
  (sget x.ptm.tpo k Tpo.zero).high != x.rbit (Reg.ptmTpoCtrl k) 29

/-- What the output functions of a serial controller that no HARD frame configures present: a UART's lines at 1 (R440), SPI lines at 0
and chip selects at 1, I²C lines let go (log entry 121). -/
def serialIdle (f : Nat) : Bool × Bool :=
  if f < 0x60 then (false, false) else (decide (f < 0x70) || (decide (f < 0x80) && decide (2 ≤ f % 8)), decide (f < 0x80))

/-- Value and enable of an output function (R434, R444, R445, R537). -/
def Half.outFn (x : Half) (f : Nat) : Bool × Bool :=
  if f < 0x40 then (x.pinBit Reg.pinData f, x.pinBit Reg.pinOe f)
  else if 0x40 ≤ f ∧ f < 0x44 then ((x.trg (f - 0x40)).xo, true)
  else if 0x48 ≤ f ∧ f < 0x4C then (x.tpoLevel (f - 0x48), true)
  else if f = 0x50 then (x.trc.pclk, true)
  else if 0x51 ≤ f ∧ f < 0x55 then (x.trc.pdata.getLsbD (f - 0x51), true)
  else if 0xC0 ≤ f ∧ f < 0x100 then
    (x.pins.dpout.getLsbD (f - 0xC0), x.rbit Reg.pinDsnOut 31 && x.fabLead)
  else
    let v := sget x.pins.outp f (if f < 0x100 then serialIdle f else (false, false))
    if 0x100 ≤ f ∧ x.fab.outs = 0 then (v.1, false) else v

/-- The enabled selections of one kind: function and pin. -/
def Half.selects (x : Half) (base : Nat) : List (Nat × Nat) :=
  (x.regs.filter (fun (e : Nat × Word) => decide (base ≤ e.1) && decide (e.1 < base + 0x1000) && wbit e.2 31)).map
    (fun (e : Nat × Word) => ((e.1 - base) / 4, fld e.2 0 6))

/-- The output function that drives a pin: the lowest one that selects it (R437). -/
def Half.driverOf (x : Half) (pin : Nat) : Option Nat :=
  ((x.selects (Reg.pinOsel 0)).find? (fun e => e.2 == pin)).map (fun e => e.1)

/-- Level and enable at a pad (R430, R433, R437, R593). -/
def Half.padDrive (x : Half) (pin : Nat) : Bool × Bool :=
  if x.pins.extest then (x.pins.scan.getLsbD pin, x.pins.scanEn.getLsbD pin)
  else if x.rbit Reg.pinBankVio (8 + pin / 16) then
    match x.driverOf pin with
    | some f => x.outFn f
    | none => (false, false)
  else (false, false)

/-- Every function that loses a conflict sets its bit (R437). -/
def Half.conflicts (x : Half) : Half :=
  (x.selects (Reg.pinOsel 0)).foldl (fun y e =>
    if x.driverOf e.2 == some e.1 then y else y.setRBit (Reg.pinOconf (e.1 / 32)) (e.1 % 32) true) x

/-! ## Inputs (R433, R435, R439, R506) -/

/-- A capture input records an edge (R506). -/
def Half.captureEdge (x : Half) (k : Nat) (rise : Bool) : Half :=
  let e := x.rfld (Reg.ptmTcapCfg k) 0 2
  if x.sys.fallow.isSome || !(if rise then natBit e 0 else natBit e 1) then x
  else
    let q := sget x.ptm.tcap k []
    if 16 ≤ q.length then x.setRBit (Reg.ptmTcapCfg k) 2 true
    else
      -- the time of the edge, less 3.2 ns
      let t := ptpOf (x.ptm.time - 16 * 2 ^ 32 / 5)
      let y := { x with ptm := { x.ptm with tcap := sput x.ptm.tcap k [] (q ++ [(t, rise)]) } }
      if y.rbit Reg.ptmEvt (4 + k) then y else (y.setRBit Reg.ptmEvt (4 + k) true).irq Reg.ptmIrq

/-- An input function takes a level (R302, R435, R439, R506); while EXTEST is selected it holds its value (R593). -/
def Half.deliver1 (x : Half) (f : Nat) (v : Bool) : Half :=
  if x.pins.extest then x else
  let changed := x.inFn f != v
  let y := { x with pins := { x.pins with inp := sput x.pins.inp f none (some v) } }
  if !changed then y
  else if f < 8 then
    let m := BitVec.ofNat 8 (2 ^ f)
    { y with eng := { y.eng with
      xtLevel := if v then y.eng.xtLevel ||| m else y.eng.xtLevel &&& ~~~m, xtLatch := y.eng.xtLatch ||| m } }
  else if f = 0x10 ∨ f = 0x11 then y.captureEdge (f - 0x10) v
  else y

/-- EXTEST is no longer selected (R593): input functions follow their pins again. -/
def Half.tapLeave (x : Half) : Half :=
  let y := { x with pins := { x.pins with extest := false } }
  if x.pins.extest then (y.selects (Reg.pinIsel 0)).foldl (fun z e => z.deliver1 e.1 (z.pinBit Reg.pinPad e.2)) y else y

/-! ## Debounce and interrupts (R446 to R448) -/

/-- A status bit sets; a rise raises the vector if it is enabled (R447). -/
def Half.pinIrqSet (x : Half) (i : Nat) : Half :=
  if x.pinBit Reg.pinIrqStat i then x
  else
    let y := x.setPinBit Reg.pinIrqStat i true
    if y.pinBit Reg.pinIrqEn i then y.irq Reg.pinIrqVec else y

/-- Level modes set their bits while the level persists (R447). -/
def Half.pinLevels (x : Half) : Half :=
  (List.range 64).foldl (fun y i =>
    let m := y.rfld (Reg.pinCfg i) 16 4
    if (m = 4 ∧ y.pinBit Reg.pinDeb i = true) ∨ (m = 5 ∧ y.pinBit Reg.pinDeb i = false) then y.pinIrqSet i else y) x

/-- Does wake entry `k` hold for a change of its pin's debounced level (R448, R456)? -/
def Half.wakeHits (x : Half) (k : Nat) (edge : Bool) : Bool :=
  let w := x.reg (Reg.pinWake k)
  let lvl := x.pinBit Reg.pinDeb (fld w 0 6)
  wbit w 31 && x.rbit Reg.pinBankVio (8 + fld w 0 6 / 16) &&
  (match fld w 8 2 with
   | 0 => edge && lvl
   | 1 => edge && !lvl
   | 2 => lvl
   | _ => !lvl)

/-- The wake entries that end fallow now; `pin` is the pin whose debounced level has changed, if any (R448). -/
def Half.pinWakes (x : Half) (pin : Option Nat) : Half :=
  (List.range 16).foldl (fun y k =>
    if x.wakeHits k (pin == some (x.rfld (Reg.pinWake k) 0 6)) then
      let z := y.setRBit Reg.pinWakeStat k true
      { z with sys := { z.sys with wake := z.sys.wake ||| 2 } }
    else y) x

/-- The debounced level of a pin changes (R446, R447, R448). -/
def Half.debSet (x : Half) (i : Nat) (v : Bool) : Half :=
  if x.pinBit Reg.pinDeb i = v then x
  else
    let y := x.setPinBit Reg.pinDeb i v
    if x.sys.fallow.isSome then y.pinWakes (some i)
    else
      let m := y.rfld (Reg.pinCfg i) 16 4
      let z := if (m = 1 ∧ v = true) ∨ (m = 2 ∧ v = false) ∨ m = 3 then y.pinIrqSet i else y
      z.pinLevels

/-- The synchronised level of a pin: every input function that reads it follows (R433, R446). -/
def Half.syncPin (x : Half) (i : Nat) (v : Bool) : Half :=
  let y := x.setPinBit Reg.pinPad i v
  let y := ((x.selects (Reg.pinIsel 0)).filter (fun e => e.2 == i)).foldl (fun y e => y.deliver1 e.1 v) y
  if y.rfld (Reg.pinCfg i) 24 8 = 0 then y.debSet i v else y

/-- The level of a pad as its cell sees it: 0 while the bank has not settled (R430); what the module drives, or else what comes from
outside (R433, R436). -/
def Half.padSeen (x : Half) (i : Nat) : Bool :=
  let d := x.padDrive i
  x.rbit Reg.pinBankVio (8 + i / 16) && (if d.2 then d.1 else x.pins.pad.getLsbD i)

/-- PIN_INPUT_CHANGE (R433, R448): in fallow only the wake filters see the pad. -/
def execPinInputChange (h : HalfId) (pin : BitVec 6) (level : Bool) (s : State) : Host.Outcome State Fault Refusal :=
  .next (s.upd h (fun x =>
    let m := BitVec.ofNat 64 (2 ^ pin.toNat)
    let y := { x with pins := { x.pins with pad := if level then x.pins.pad ||| m else x.pins.pad &&& ~~~m } }
    if y.sys.fallow.isSome then y
    else if y.padSeen pin.toNat = y.pinBit Reg.pinPad pin.toNat then y
    else y.syncPin pin.toNat (y.padSeen pin.toNat)))

/-- A pin that an enabled wake entry names. -/
def Half.wakePin (x : Half) (i : Nat) : Bool :=
  (List.range 16).any (fun k => x.rbit (Reg.pinWake k) 31 && x.rfld (Reg.pinWake k) 0 6 == i)

/-- DEBOUNCE_CHANGE (R446 to R448): the filter has sampled the pin's level DEB_COUNT times. -/
def execDebounceChange (h : HalfId) (pin : BitVec 6) (s : State) : Host.Outcome State Fault Refusal :=
  .next (s.upd h (fun x =>
    if x.sys.fallow.isSome then
      if x.wakePin pin.toNat then x.debSet pin.toNat (x.padSeen pin.toNat) else x
    else x.debSet pin.toNat (x.pinBit Reg.pinPad pin.toNat)))

/-- A keeper holds the level last present on its pad (R433). -/
def Half.keepPads (x : Half) : Half :=
  let m := (x.selects (Reg.pinOsel 0)).foldl (fun m e =>
    if x.rfld (Reg.pinCfg e.2) 0 2 = 3 ∧ (x.padDrive e.2).2 = true then
      (m &&& ~~~(1#64 <<< e.2)) ||| (BitVec.ofNat 64 (bitNat (x.padDrive e.2).1) <<< e.2) else m) x.pins.pad
  { x with pins := { x.pins with pad := m } }

/-- The synchronised levels follow the pads (R433): two to three edges behind, and from the end of fallow again. -/
def Half.pinsResume (x : Half) : Half :=
  (List.range 64).foldl (fun y i => if y.padSeen i = y.pinBit Reg.pinPad i then y else y.syncPin i (y.padSeen i)) x

/-! ## Writes (R430, R436 to R441, R450 to R454) -/

/-- A write of `PIN_OSEL_f`. -/
def Half.oselWrite (x : Half) (f : Nat) (v : Word) : Half :=
  if outFnOk f then (x.setReg (Reg.pinOsel f) (v &&& 0x8000003F#32)).conflicts else x

/-- A write of `PIN_ISEL_f`: an input function that is moved follows its new pin; one that is disabled holds its value
(R439). -/
def Half.iselWrite (x : Half) (f : Nat) (v : Word) : Half :=
  if inFnOk f then
    let y := x.setReg (Reg.pinIsel f) (v &&& 0x8000003F#32)
    if wbit v 31 then y.deliver1 f (y.pinBit Reg.pinPad (fld v 0 6)) else y
  else x

/-- A write of `PIN_CFG_i` (R438, R446, R447, R453). -/
def Half.pinCfgWrite (x : Half) (i : Nat) (v : Word) : Half :=
  let y := x.setReg (Reg.pinCfg i) (v &&& 0xFF3F0013#32)
  let z := if fld v 24 8 = 0 then y.debSet i (y.pinBit Reg.pinPad i) else y
  z.pinLevels

/-- A write of a selection or of a pin's configuration, at an offset of the PIN block. -/
def Half.pinWrite (x : Half) (off : Nat) (v : Word) : Half :=
  if 0x1000 ≤ off ∧ off < 0x2000 then x.oselWrite ((off - 0x1000) / 4) v
  else if 0x2000 ≤ off ∧ off < 0x3000 then x.iselWrite ((off - 0x2000) / 4) v
  else if 0x100 ≤ off ∧ off < 0x200 then x.pinCfgWrite ((off - 0x100) / 4) v
  else x

/-- PIN_FUNCTION_SWITCH (R436 to R440): `off` is the register's offset in the PIN block. -/
def execPinFunctionSwitch (h : HalfId) (m : Master) (off : BitVec 16) (v : Word) (s : State) :
    Host.Outcome State Fault Refusal :=
  .next (s.byMaster h m (fun s => s.upd h (fun x => x.pinWrite off.toNat v)))

/-- A change of one bank's VIO (R430, R452). -/
def Half.bankVio (x : Half) (b v : Nat) : Half :=
  if v = 3 ∨ v = x.rfld Reg.pinBankVio (2 * b) 2 then x
  else if (List.range 16).any (fun i => (x.padDrive (16 * b + i)).2) then x.setRBit Reg.pinBankVio 12 true
  else
    let y := (x.setRFld Reg.pinBankVio (2 * b) 2 v).setRBit Reg.pinBankVio (8 + b) false
    (List.range 16).foldl (fun y i => if y.pinBit Reg.pinPad (16 * b + i) then y.syncPin (16 * b + i) false else y) y

/-- A write of `PIN_BANK_VIO` (R452). -/
def Half.bankVioWrite (x : Half) (v : Word) : Half :=
  let y := if wbit v 12 then x.setRBit Reg.pinBankVio 12 false else x
  (List.range 4).foldl (fun y b => y.bankVio b (fld v (2 * b) 2)) y

/-- PIN_BANK_VIO_WRITE (R430, R452). -/
def execPinBankVioWrite (h : HalfId) (m : Master) (v : Word) (s : State) : Host.Outcome State Fault Refusal :=
  .next (s.byMaster h m (fun s => s.upd h (fun x => x.bankVioWrite v)))

/-- VIO_SETTLED (R430): the bank's OK bit reads 1 again and its inputs follow their pads. -/
def execVioSettled (h : HalfId) (bank : BitVec 2) (s : State) : Host.Outcome State Fault Refusal :=
  .next (s.upd h (fun x =>
    let y := x.setRBit Reg.pinBankVio (8 + bank.toNat) true
    (List.range 16).foldl (fun y i =>
      let p := 16 * bank.toNat + i
      if y.padSeen p = y.pinBit Reg.pinPad p then y else y.syncPin p (y.padSeen p)) y))

/-- PIN_DATA_SET and PIN_DATA_CLR change latch bits (R441, R450). -/
def Half.dataSet (x : Half) (hi : Bool) (v : Word) : Half :=
  x.setReg (Reg.pinData (bitNat hi)) (x.reg (Reg.pinData (bitNat hi)) ||| v)
def Half.dataClr (x : Half) (hi : Bool) (v : Word) : Half :=
  x.setReg (Reg.pinData (bitNat hi)) (x.reg (Reg.pinData (bitNat hi)) &&& ~~~v)

/-- PIN_DATA_SET (R441). -/
def execPinDataSet (h : HalfId) (m : Master) (hi : Bool) (v : Word) (s : State) : Host.Outcome State Fault Refusal :=
  .next (s.byMaster h m (fun s => s.upd h (fun x => x.dataSet hi v)))

/-- PIN_DATA_CLR (R441). -/
def execPinDataClr (h : HalfId) (m : Master) (hi : Bool) (v : Word) (s : State) : Host.Outcome State Fault Refusal :=
  .next (s.byMaster h m (fun s => s.upd h (fun x => x.dataClr hi v)))

/-! ## Design pin groups (R442 to R444) -/

/-- Design input bits that a port, a channel or an armed playback engine holds (R442, R507). -/
def Half.inputsHeld (x : Half) : List Nat :=
  x.portBits ++ x.channelBits ++ ((List.range 4).filter (fun i => (x.ply i).st.armed)).flatMap (fun i =>
    match (x.ply i).desc with
    | some d => d.bits
    | none => [])

/-- A binding of `count` bits names bits of the tile and an enabled descriptor (R442, R507). -/
def State.dsnOk (s : State) (h : HalfId) (v : Word) (count : Nat) : Bool :=
  decide (fld v 0 7 + count ≤ 128) && s.domEnabled h ((s.half h).run.loaded.getD .split) (fld v 16 8)

/-- The keys of the bits that a binding names. -/
def dsnKeys (v : Word) (count : Nat) : List Nat := (List.range count).map (fun i => fld v 24 6 * 128 + fld v 0 7 + i)

/-- A write of `PIN_DSN_IN` (R442). A binding out of range is ignored and sets DSN_ERR, as one with a bit already bound. -/
def State.dsnInWrite (s : State) (h : HalfId) (v : Word) : State :=
  let x := s.half h
  if x.inRun then s
  else
    let taken := x.inputsHeld ++ x.dsnBits Reg.ptmDsn 96
    if wbit v 31 && (!s.dsnOk h v 64 || (dsnKeys v 64).any (fun b => taken.contains b)) then
      s.upd h (fun y => y.setRBit Reg.pinDsnStat 0 true)
    else s.upd h (fun y => y.setReg Reg.pinDsnIn (v &&& 0xBFFF007F#32))

/-- PIN_DSN_IN_WRITE (R442). -/
def execPinDsnInWrite (h : HalfId) (m : Master) (v : Word) (s : State) : Host.Outcome State Fault Refusal :=
  .next (s.byMaster h m (fun s => s.dsnInWrite h v))

/-- A write of `PIN_DSN_OUT` (R442). -/
def State.dsnOutWrite (s : State) (h : HalfId) (v : Word) : State :=
  if (s.half h).inRun || (wbit v 31 && !s.dsnOk h v 64) then s
  else s.upd h (fun y => y.setReg Reg.pinDsnOut (v &&& 0xBFFF007F#32))

/-- A register binds the design at domain `dom`. -/
def Half.dsnAt (x : Half) (reg dom : Nat) : Bool := x.rbit reg 31 && x.rfld reg 16 8 == dom

/-- B7: the DPOUT functions follow the sampled outputs; not in replay (R443), and in PAIRED only the lead half's, after the
signature comparison of the cycle (R444). -/
def Half.pinB7 (x : Half) (dom : Nat) : Half :=
  if x.dsnAt Reg.pinDsnOut dom && !x.replaying && x.fabLead then
    let v := BitVec.ofNat 64 (x.doutNum (x.rfld Reg.pinDsnOut 24 6 * 128 + x.rfld Reg.pinDsnOut 0 7) 64)
    if x.run.mode = .paired then { x with pins := { x.pins with dpWait := x.pins.dpWait ++ [(x.run.cyc, v)] } }
    else { x with pins := { x.pins with dpout := v } }
  else x

/-- The DPOUT values of cycles up to `n` are driven (R444). -/
def Half.flushPins (x : Half) (n : Nat) : Half :=
  let go (e : DWord × BitVec 64) : Bool := decide (e.1.toNat ≤ n)
  let v := match (x.pins.dpWait.filter go).getLast? with
    | some e => e.2
    | none => x.pins.dpout
  { x with pins := { x.pins with dpout := v, dpWait := x.pins.dpWait.filter (fun e => !go e) } }

/-- A sample for the design: journalled while assured operation is active, else kept for the boundary's B9. -/
def Half.journalSample (x : Half) (kind reg count dom bits : Nat) : Half :=
  x.journal 0 (some dom) (.inputBits kind (x.rfld reg 24 6) (x.rfld reg 0 7) count bits)

/-- B0: the DPIN sample (R443). -/
def Half.pinB0 (x : Half) (dom : Nat) : Half :=
  if x.dsnAt Reg.pinDsnIn dom && !x.replaying && x.fabLead then
    let v := (List.range 64).foldl (fun n k => n + bitNat (x.inFn (0xC0 + k)) * 2 ^ k) 0
    if x.asr.active then x.journalSample 2 Reg.pinDsnIn 64 dom v
    else { x with pins := { x.pins with dpin := some (BitVec.ofNat 64 v) } }
  else x

/-- Input bits of the lead half's sources reach both halves in PAIRED (R417, R444). -/
def State.commitIn (s : State) (h : HalfId) (bits : List (Nat × Bool)) : State :=
  if (s.half h).run.mode = .paired then s.grp h (fun y => y.setDin bits) else s.upd h (fun y => y.setDin bits)

/-- B9 with assured operation inactive: the sample enters (R443). -/
def State.pinB9 (s : State) (h : HalfId) : State :=
  let x := s.half h
  match x.pins.dpin with
  | some v =>
    (s.upd h (fun y => { y with pins := { y.pins with dpin := none } })).commitIn h
      (inBits (x.rfld Reg.pinDsnIn 24 6) (x.rfld Reg.pinDsnIn 0 7) 64 v.toNat)
  | none => s

/-- Writes of the pin-wide registers that have a consequence (R447, R450, R454). -/
def Half.pinIrqStatWrite (x : Half) (i : Nat) (v : Word) : Half :=
  (x.setReg (Reg.pinIrqStat i) (x.reg (Reg.pinIrqStat i) &&& ~~~v)).pinLevels
def Half.oconfWrite (x : Half) (n : Nat) (v : Word) : Half :=
  (x.setReg (Reg.pinOconf n) (x.reg (Reg.pinOconf n) &&& ~~~v)).conflicts

/-- A successful image load clears EN of the design pin groups (R442) and of `PTM_DSN` (R507). -/
def Half.unbindPins (x : Half) : Half :=
  ((x.setRBit Reg.pinDsnOut 31 false).setRBit Reg.pinDsnIn 31 false).setRBit Reg.ptmDsn 31 false

end Sys2Proof.Machine
end

