-- ==== Sys2Proof/Machine/Image.lean ====
section
/-!
DEFINITION. Machine/Image.lean: what an image holds: header, section table, and the bodies of its sections as the load
reads them (R97 to R107, R115, R127, R171, R201, R231, R278 to R280, R330, R393, R406).
-/

namespace Sys2Proof.Machine

/-! ## The image (R97 to R101, R567) -/

/-- An entry of the section table, with its index (R100). -/
structure Sect where
  idx  : Nat
  typ  : Nat
  half : Nat
  tile : Nat
  off  : Nat
  size : Nat
  crc  : Nat
  deriving DecidableEq, Repr

/-- A staged image with the arguments of its load (R567): the bytes lie in `mem` from `base` up. -/
structure Image where
  mem     : List Host.Cell
  base    : Nat
  len     : Nat
  mode    : Nat
  targets : List HalfId
  deriving DecidableEq, Repr

/-- A little-endian number of `n` bytes at an offset of the image. -/
def Image.num (im : Image) (o n : Nat) : Nat := leNat (rdBytes im.mem (im.base + o) n)
/-- Bytes of the image. -/
def Image.bytes (im : Image) (o n : Nat) : Bytes := rdBytes im.mem (im.base + o) n
/-- All of `n` bytes at an offset are 0. -/
def Image.blank (im : Image) (o n : Nat) : Bool := (im.bytes o n).all (fun b => b == 0#8)

/-- HALVES, MODES, SECTIONS, HBM_MIB, ASSURED and BUILD_ID of the header (R98). -/
def Image.halves (im : Image) : Nat := im.num 8 1
def Image.modes (im : Image) : Nat := im.num 9 1
def Image.count (im : Image) : Nat := im.num 0xA 2
def Image.hbmMib (im : Image) : Nat := im.num 0xC 4
def Image.assured (im : Image) : Bool := natBit (im.num 0x18 4) 0
def Image.buildId (im : Image) : Nat := im.num 0x1C 8

/-- Section table entry `i` (R100). -/
def Image.sect (im : Image) (i : Nat) : Sect :=
  let o := 0x40 + 32 * i
  { idx := i, typ := im.num o 2, half := im.num (o + 2) 1, tile := im.num (o + 3) 1, off := im.num (o + 8) 8
    size := im.num (o + 0x10) 8, crc := im.num (o + 0x18) 4 }

/-- The section table. -/
def Image.sects (im : Image) : List Sect := (List.range im.count).map im.sect

/-- The sections of a type for one half of the image. -/
def Image.of (im : Image) (typ k : Nat) : List Sect := im.sects.filter (fun c => c.typ == typ && c.half == k)
/-- The sections of a type for a tile of one half. -/
def Image.ofTile (im : Image) (typ k n : Nat) : List Sect := (im.of typ k).filter (fun c => c.tile == n)

/-- A number and bytes inside a section body. -/
def Image.at (im : Image) (c : Sect) (o n : Nat) : Nat := im.num (c.off + o) n
def Image.body (im : Image) (c : Sect) : Bytes := im.bytes c.off c.size

/-- The halves of the image: 0, and 1 in a two-half image. -/
def Image.parts (im : Image) : List Nat := if im.halves = 2 then [0, 1] else [0]

/-- The half of the image that a target half takes (R99). -/
def Image.part (im : Image) (h : HalfId) : Nat := if im.halves = 2 then halfNum h else 0

/-- The target halves that take a section. -/
def Image.reach (im : Image) (c : Sect) : List HalfId := im.targets.filter (fun h => im.part h == c.half)

/-! ## BP_INSTR, ATTR, INIT, RANGES (R102 to R107) -/

/-- The block prefix (R102). -/
structure Pre where
  first : Nat
  cnt   : Nat
  bp0   : Nat
  bpn   : Nat
  deriving DecidableEq, Repr

/-- The prefix of a section. -/
def Image.pre (im : Image) (c : Sect) : Pre := ⟨im.at c 0 2, im.at c 2 2, im.at c 4 2, im.at c 6 2⟩

/-- The step bounds of a prefix. -/
def Pre.stepsOk (p : Pre) : Bool := decide (1 ≤ p.cnt) && decide (p.first + p.cnt ≤ 4096)
/-- The BP bounds of a prefix. -/
def Pre.bpsOk (p : Pre) : Bool := decide (1 ≤ p.bpn) && decide (p.bp0 + p.bpn ≤ 1024)

/-- A position covered by a prefix. -/
def Pre.covers (p : Pre) (b s : Nat) : Bool :=
  decide (p.bp0 ≤ b) && decide (b < p.bp0 + p.bpn) && decide (p.first ≤ s) && decide (s < p.first + p.cnt)

/-- The body offset of the word of BP `b` at position `s` (R103). -/
def Pre.wordOff (p : Pre) (b s : Nat) : Nat := 16 + ((b - p.bp0) * p.cnt + (s - p.first)) * 8

/-- A word of a BP_INSTR body: its body offset, the BP within the tile, the position, the word. -/
structure BpItem where
  off : Nat
  bp  : Nat
  pos : Nat
  w   : Nat
  deriving DecidableEq, Repr

/-- The words of a BP_INSTR body in body order (R103). -/
def Image.words (im : Image) (c : Sect) : List BpItem :=
  let p := im.pre c
  (List.range p.bpn).flatMap (fun b => (List.range p.cnt).map (fun s =>
    let o := 16 + (b * p.cnt + s) * 8
    ⟨o, p.bp0 + b, p.first + s, im.at c o 8⟩))

/-- OP and the four operand fields of a word. -/
def BpItem.op (i : BpItem) : Nat := natField i.w 60 4
def BpItem.fields (i : BpItem) : List Nat := [natField i.w 39 13, natField i.w 26 13, natField i.w 13 13, natField i.w 0 13]

/-- The word that an image gives BP `b` of a tile at position `s`; 0 where no section covers it (R109). -/
def Image.word (im : Image) (k n b s : Nat) : Nat :=
  match (im.ofTile 1 k n).find? (fun c => (im.pre c).covers b s) with
  | some c => im.at c ((im.pre c).wordOff b s) 8
  | none => 0

/-- The attribute that an image gives a slot (R105). -/
def Image.attr (im : Image) (k n b s : Nat) : Nat :=
  match (im.ofTile 3 k n).find? (fun c => (im.pre c).covers b s) with
  | some c =>
    let p := im.pre c
    im.at c (16 + (b - p.bp0) * (p.cnt / 2) + (s - p.first) / 2) 1 / (if s % 2 = 0 then 1 else 16) % 16
  | none => 0

/-- An entry of the RANGES section (R107), with its body offset. -/
structure Rng where
  off  : Nat
  base : Nat
  len  : Nat
  dom  : Nat
  edge : Nat
  deriving DecidableEq, Repr

/-- The RANGES section, if there is one. -/
def Image.rangesSect (im : Image) : Option Sect := (im.of 5 0).head?

/-- The ranges of the image. -/
def Image.ranges (im : Image) : List Rng :=
  match im.rangesSect with
  | some c => (List.range (im.at c 0 4)).map (fun i =>
      let o := 8 + 8 * i
      ⟨o, im.at c o 2, im.at c (o + 2) 2, im.at c (o + 4) 1, im.at c (o + 5) 1⟩)
  | none => []

/-- A position of a range. -/
def Rng.has (r : Rng) (s : Nat) : Bool := decide (r.base ≤ s) && decide (s < r.base + r.len)

/-- The range that holds a position. -/
def rangeAt (rs : List Rng) (s : Nat) : Option Rng := rs.find? (fun r => r.has s)

/-! ## SWITCH (R115, R127) -/

/-- A move of a SWITCH body: its body offset, its position, its number, the 24-bit word. -/
structure SwItem where
  off : Nat
  pos : Nat
  m   : Nat
  w   : Nat
  deriving DecidableEq, Repr

/-- The moves of a SWITCH body that are not all zero. -/
def Image.moves (im : Image) (c : Sect) : List SwItem :=
  (List.range (im.at c 2 2)).flatMap (fun s => (List.range 128).filterMap (fun m =>
    let o := 16 + s * 384 + 3 * m
    let w := im.at c o 3
    if w = 0 then none else some ⟨o, im.at c 0 2 + s, m, w⟩))

/-- A strobe move: its section, body offset, position, port, and whether it writes (R220). -/
structure Strobe where
  sect : Sect
  off  : Nat
  pos  : Nat
  port : Nat
  wr   : Bool
  deriving DecidableEq, Repr

/-- The strobe moves of a SWITCH body. -/
def Image.strobes (im : Image) (c : Sect) : List Strobe :=
  (im.moves c).filterMap (fun i =>
    let mv := decodeMove i.w
    if mv.v && decide (0x400 ≤ mv.dst) && decide (mv.dst < 0x600) && (mv.dst % 128 == 0x5A || mv.dst % 128 == 0x5B) then
      some ⟨c, i.off, i.pos, (mv.dst - 0x400) / 128, mv.dst % 128 == 0x5B⟩
    else none)

/-! ## RUN_PROGRAM (R171, R201) -/

/-- The header of a RUN_PROGRAM body. -/
structure RpHead where
  entry : Nat
  prog  : Nat
  descs : Nat
  gap   : Nat
  start : Nat
  dataO : Nat
  dataN : Nat
  deriving DecidableEq, Repr

/-- The header of a section. -/
def Image.rp (im : Image) (c : Sect) : RpHead :=
  { entry := im.at c 0 4, prog := im.at c 4 4, descs := im.at c 8 2, gap := im.at c 0xC 4, start := im.at c 0x10 8
    dataO := im.at c 0x18 4, dataN := im.at c 0x1C 4 }

/-- Body offset of descriptor `i`, of program word `p` and of the data. -/
def rpDescOff (i : Nat) : Nat := 0x40 + 32 * i
def RpHead.wordOff (r : RpHead) (p : Nat) : Nat := 0x40 + 32 * r.descs + 4 * p
def RpHead.dataOff (r : RpHead) : Nat := 0x40 + 32 * r.descs + 4 * r.prog

/-- Descriptor `i` of a section. -/
def Image.desc (im : Image) (c : Sect) (i : Nat) : Desc := descOf (fun w => im.at c (rpDescOff i + 4 * w) 4)

/-! ## MEM_INIT (R231) -/

/-- A record of a MEM_INIT body: its body offset, target offset, length, and whether it is well formed. -/
structure MiRec where
  off : Nat
  tgt : Nat
  len : Nat
  ok  : Bool
  deriving DecidableEq, Repr

/-- The records from a body offset on, up to the first that is not well formed. -/
def Image.recsFrom (im : Image) (c : Sect) : Nat → Nat → List MiRec
  | 0, _ => []
  | n + 1, o =>
    if c.size ≤ o then []
    else if c.size < o + 16 then [⟨o, 0, 0, false⟩]
    else
      let tgt := im.at c o 8
      let len := im.at c (o + 8) 4
      let limit := if c.tile = 0xFF then 2 * stackBytes else 0x100000
      if tgt % 8 == 0 && decide (1 ≤ len) && len % 8 == 0 && im.at c (o + 12) 4 == 0 && decide (tgt + len ≤ limit) &&
          decide (o + 16 + len ≤ c.size) then
        ⟨o, tgt, len, true⟩ :: im.recsFrom c n (o + 16 + len)
      else [⟨o, tgt, len, false⟩]

/-- The records of a body. -/
def Image.recs (im : Image) (c : Sect) : List MiRec := im.recsFrom c (c.size / 16 + 1) (if c.tile = 0xFF then 0 else 64)

/-- CFG and BASE that an image gives port `p` of a tile; 0, which is OFF, where the tile has no section (R232). -/
def Image.port (im : Image) (k n p : Nat) : Nat × Nat :=
  match (im.ofTile 0x50 k n).head? with
  | some c => (im.at c (16 * p) 4, im.at c (16 * p + 4) 4)
  | none => (0, 0)

/-- TARGET, word bytes, address bits and remote tile of a CFG (R217). -/
def cfgTarget (v : Nat) : Nat := natField v 0 2
def cfgBytes (v : Nat) : Nat := 2 ^ natField v 2 2
def cfgBits (v : Nat) : Nat := natField v 13 5
def cfgTile (n v : Nat) : Nat := if cfgTarget v = 2 then natField v 18 6 else n

/-! ## TXE_DESC (R278 to R280) -/

/-- A port record. -/
structure PortRec where
  port : Nat
  tile : Nat
  dom  : Nat
  wid  : Nat
  inB  : Nat
  outB : Nat
  msg  : Nat
  inN  : Nat
  outN : Nat
  deriving DecidableEq, Repr

/-- PORT_COUNT and TMPL_COUNT. -/
def Image.portCount (im : Image) (c : Sect) : Nat := im.at c 0 2
def Image.tmplCount (im : Image) (c : Sect) : Nat := im.at c 2 2
/-- Body offsets of records. -/
def portOff (i : Nat) : Nat := 16 + 16 * i
def Image.tmplOff (im : Image) (c : Sect) (t : Nat) : Nat := 16 + 16 * im.portCount c + 32 * t

/-- Port record `i`. -/
def Image.portRec (im : Image) (c : Sect) (i : Nat) : PortRec :=
  let o := portOff i
  { port := im.at c o 1, tile := im.at c (o + 1) 1, dom := im.at c (o + 2) 1, wid := im.at c (o + 3) 1
    inB := im.at c (o + 4) 1, outB := im.at c (o + 5) 1, msg := im.at c (o + 6) 2, inN := im.at c (o + 8) 2
    outN := im.at c (o + 10) 2 }

/-- The port records of a section. -/
def Image.portRecs (im : Image) (c : Sect) : List PortRec := (List.range (im.portCount c)).map (im.portRec c)

/-- The template that a record of 32 bytes spells. -/
def tmplOf (b : Bytes) : Tmpl :=
  let n := bn b 0xD 1
  { handler := bn b 0 1, prio := bn b 2 1, standing := natBit (bn b 3 1) 0, toNs := natBit (bn b 3 1) 1
    seqEvent := natBit (bn b 3 1) 2, timeout := bn b 4 4, src := bn b 8 2, dst := bn b 0xA 2, cq := bn b 0xC 1
    list := (List.range n).map (fun i => bn b (0x10 + i) 1), lens := (List.range n).map (fun i => bn b (0x18 + i) 1)
    count := bn b 0xE 2 }

/-- Template record `t`. -/
def Image.tmplBytes (im : Image) (c : Sect) (t : Nat) : Bytes := im.bytes (c.off + im.tmplOff c t) 32
def Image.tmpls (im : Image) (c : Sect) : List Tmpl := (List.range (im.tmplCount c)).map (fun t => tmplOf (im.tmplBytes c t))

/-! ## CAP_DESC (R330) -/

/-- A descriptor block: its body offset, its first entry, its count of entries, and whether its header is well formed. -/
structure CdBlock where
  off : Nat
  idx : Nat
  n   : Nat
  ok  : Bool
  deriving DecidableEq, Repr

/-- The blocks from a body offset on, up to the first that is not well formed. -/
def Image.blocksFrom (im : Image) (c : Sect) : Nat → Nat → List CdBlock
  | 0, _ => []
  | k + 1, o =>
    if c.size ≤ o then []
    else if c.size < o + 8 then [⟨o, 0, 0, false⟩]
    else
      let i := im.at c o 2
      let n := im.at c (o + 2) 2
      if decide (1 ≤ n) && im.at c (o + 4) 4 == 0 && decide (i + n ≤ 4096) && decide (o + 8 + 64 * n ≤ c.size) then
        ⟨o, i, n, true⟩ :: im.blocksFrom c k (o + 8 + 64 * n)
      else [⟨o, i, n, false⟩]

/-- The blocks of a body. -/
def Image.blocks (im : Image) (c : Sect) : List CdBlock := im.blocksFrom c (c.size / 8 + 1) 0

/-- The entries of a block. -/
def Image.blockBytes (im : Image) (c : Sect) (b : CdBlock) : Bytes := im.bytes (c.off + b.off + 8) (64 * b.n)

/-- The PLAYBACK descriptors of a body with their blocks. -/
def Image.plays (im : Image) (c : Sect) : List (CdBlock × PlyDesc) :=
  (im.blocks c).filterMap (fun b => (plyParse (im.blockBytes c b)).map (fun d => (b, d)))

/-! ## FABRIC (R393, R406) -/

/-- A channel record. -/
structure ChRec where
  off   : Nat
  ch    : Nat
  tile  : Nat
  dom   : Nat
  flags : Nat
  inF   : Nat
  inC   : Nat
  strb  : Nat
  outF  : Nat
  outC  : Nat
  log2  : Nat
  ring  : Nat
  rsvd  : Nat
  deriving DecidableEq, Repr

/-- The channel records of a body. -/
def Image.chRecs (im : Image) (c : Sect) : List ChRec :=
  (List.range (im.at c 9 1)).map (fun i =>
    let o := 64 + 16 * i
    { off := o, ch := im.at c o 1, tile := im.at c (o + 1) 1, dom := im.at c (o + 2) 1, flags := im.at c (o + 3) 1
      inF := im.at c (o + 4) 1, inC := im.at c (o + 5) 1, strb := im.at c (o + 6) 1, outF := im.at c (o + 7) 1
      outC := im.at c (o + 8) 1, log2 := im.at c (o + 9) 1, ring := im.at c (o + 12) 4, rsvd := im.at c (o + 10) 2 })

end Sys2Proof.Machine
end

