-- ==== Sys2Proof/Machine/ImageCheck.lean ====
section
/-!
DEFINITION. Machine/ImageCheck.lean: the checks that the image loader makes, in their order (R108, R112, R128, R203,
R232, R281, R331, R418, R603).
-/

namespace Sys2Proof.Machine

/-- An error or warning met by the loader (R111): where it stands in the order of R603, its code, the section table
entry (0xFFFF the header, 0xFFFE a missing section), the half, the byte offset. -/
structure Finding where
  at_  : Nat
  code : Nat
  sect : Nat
  half : Nat
  off  : Nat
  deriving DecidableEq, Repr

/-- Codes that are warnings (R112, R128, R203, R232, R281, R331, R418). -/
def isWarn (c : Nat) : Bool := [0x20, 0x21, 0x35, 0x36, 0x48, 0x56, 0x68, 0x78, 0x88].contains c

/-- A finding against a section's own body, at an offset. -/
def Sect.note (c : Sect) (code off : Nat) : Finding := ⟨c.idx, code, c.idx, c.half, off⟩

/-- The same, in its place among the checks of a later body, of index `i` (R603 step 3). -/
def Sect.noteAt (c : Sect) (i code off : Nat) : Finding := ⟨max i c.idx, code, c.idx, c.half, off⟩

/-- The largest of some indices. -/
def maxIdx (l : List Nat) : Nat := l.foldl max 0

/-- A finding when a condition holds. -/
def when' (b : Bool) (f : Finding) : List Finding := if b then [f] else []

/-! ## Header and section table (R98 to R101, R603 steps 1 and 2) -/

/-- The member declares its geometry and its HBM in `NOC_PARAM0` (R38); a stack marked in HBM_FAIL is not there (R564). -/
def Half.arch (x : Half) : Nat := x.rfld Reg.nocParam0 0 8
def Half.geometry (x : Half) : Nat := x.rfld Reg.nocParam0 20 4 * 16 + x.rfld Reg.nocParam0 16 4
def Half.hbmMib (x : Half) : Nat := (x.rfld Reg.nocParam0 24 4 - bitNat (x.rbit Reg.stwBoot 26) - bitNat (x.rbit Reg.stwBoot 27)) * 24576

/-- HALVES and MODES agree with R99. -/
def Image.modesOk (im : Image) : Bool :=
  if im.halves = 2 then im.modes == 1 else im.halves == 1 && (im.modes == 2 || im.modes == 4 || im.modes == 6)

/-- The header checks (R112, R603 step 1). OFFSET is that of the field at fault (log entry 22). -/
def Image.header (im : Image) (s : State) : List Finding :=
  let f (b : Bool) (code off : Nat) : List Finding := when' b ⟨0, code, 0xFFFF, 0, off⟩
  let each (p : Half → Bool) (code off : Nat) : List Finding :=
    im.targets.flatMap (fun h => when' (p (s.half h)) ⟨0, code, 0xFFFF, halfNum h, off⟩)
  f (im.num 0 4 != 0x494E524C) 0x01 0 ++
  f ((crc32c (im.bytes 0 0x3C)).toNat != im.num 0x3C 4) 0x03 0x3C ++
  f (im.num 4 2 != 2) 0x02 4 ++ f (im.halves == 0 || decide (2 < im.halves)) 0x02 8 ++ f (!im.modesOk) 0x02 9 ++
  f (im.num 0x10 8 != im.len) 0x02 0x10 ++ f (decide (1 < im.num 0x18 4)) 0x02 0x18 ++ f (!im.blank 0x24 24) 0x02 0x24 ++
  each (fun x => im.num 6 1 != x.arch) 0x04 6 ++ each (fun x => im.num 7 1 != x.geometry) 0x05 7 ++
  f (!natBit im.modes im.mode || (im.halves == 2 && im.mode != 0)) 0x06 9 ++
  each (fun x => decide (x.hbmMib < im.hbmMib)) 0x07 0xC

/-- TYPE exists and TILE suits it (R101). -/
def Sect.typeOk (c : Sect) : Bool :=
  if [1, 2, 3, 4, 0x10].contains c.typ then decide (c.tile < 64)
  else if [5, 0x20, 0x30, 0x31, 0x40].contains c.typ then c.tile == 0xFF
  else if c.typ = 0x50 then decide (c.tile < 64) || c.tile == 0xFF
  else decide (0x8000 ≤ c.typ)

/-- HALF suits the image and the type (R100, R107). -/
def Image.halfOk (im : Image) (c : Sect) : Bool := decide (c.half < im.halves) && (c.typ != 5 || c.half == 0)

/-- Two bodies meet. -/
def Sect.meets (c d : Sect) : Bool :=
  decide (0 < c.size) && decide (0 < d.size) && decide (c.off < d.off + d.size) && decide (d.off < c.off + c.size)

/-- OFFSET and SIZE of an entry are in bounds (R98, R100). -/
def Image.boundsOk (im : Image) (c : Sect) : Bool :=
  c.off % 64 == 0 && decide (0x40 + 32 * im.count ≤ c.off) && decide (c.off + c.size ≤ im.len) &&
  !((im.sects.take c.idx).any (fun d => c.meets d))

/-- The checks of the section table (R603 step 2), reported with OFFSET 0, as SECTION_SHAPE and OVERLAP are (log entry 22). -/
def Image.table (im : Image) : List Finding :=
  im.sects.flatMap (fun c =>
    let o := 0x40 + 32 * c.idx
    when' (!c.typeOk || !im.halfOk c || im.num (o + 4) 4 != 0 || im.num (o + 0x1C) 4 != 0) (c.note 0x0A 0) ++
    when' (!im.boundsOk c) (c.note 0x08 0) ++
    when' ((crc32c (im.body c)).toNat != c.crc) (c.note 0x09 0))

/-! ## Shapes and overlaps (R102 to R108, R127) -/

/-- SECTION_SHAPE: the prefix and the size of a body. -/
def Image.shapeOk (im : Image) (c : Sect) : Bool :=
  let p := im.pre c
  let area := p.stepsOk && p.bpsOk && im.blank (c.off + 8) 8
  match c.typ with
  | 1 => area && c.size == 16 + 8 * p.bpn * p.cnt
  | 2 => c.size == 8192
  | 3 => area && p.first % 2 == 0 && p.cnt % 2 == 0 && c.size == 16 + p.bpn * (p.cnt / 2)
  | 4 => area && p.first % 8 == 0 && p.cnt % 8 == 0 && c.size == 16 + p.bpn * (p.cnt / 8)
  | 5 =>
    let n := im.at c 0 4
    im.at c 4 4 == 0 && decide (1 ≤ n) && decide (n ≤ 512) && c.size == 8 + 8 * n &&
      (List.range n).all (fun i => im.at c (8 + 8 * i + 6) 2 == 0)
  | 0x10 => p.stepsOk && im.blank (c.off + 4) 12 && c.size == 16 + 384 * p.cnt
  | _ => true

/-- Two intervals meet. -/
def spansMeet (a n b m : Nat) : Bool := decide (a < b + m) && decide (b < a + n)

/-- Two sections of the same type, half and tile cover a common word, slot or entry (R108). -/
def Image.overlap (im : Image) (c d : Sect) : Bool :=
  let p := im.pre c
  let q := im.pre d
  c.typ == d.typ && c.half == d.half && c.tile == d.tile &&
  (match c.typ with
   | 1 | 3 | 4 => spansMeet p.first p.cnt q.first q.cnt && spansMeet p.bp0 p.bpn q.bp0 q.bpn
   | 2 | 5 => true
   | 0x10 => spansMeet p.first p.cnt q.first q.cnt
   | _ => false)

/-- SECTION_SHAPE and OVERLAP of a body. -/
def Image.shapes (im : Image) (c : Sect) : List Finding :=
  when' (!im.shapeOk c) (c.note 0x0B 0) ++ when' ((im.sects.take c.idx).any (fun d => im.overlap c d)) (c.note 0x0C 0)

/-! ## BP words, palettes, attributes, ranges (R112) -/

/-- A logical BP of tile `n` of a target half is unserved (R84). -/
def Half.lost (x : Half) (n b : Nat) : Bool := x.unserved (n * 1024 + b)

/-- A word breaks R84 in half `x`. -/
def Half.wordLost (x : Half) (n : Nat) (i : BpItem) : Bool :=
  i.op != 0 && (x.lost n i.bp || i.fields.any (fun f =>
    decide (0x1000 ≤ f) && decide (f < 0x1040) && x.lost n (i.bp / 64 * 64 + (f - 0x1000))))

/-- The checks of a BP_INSTR body. An image without a RANGES section meets no OUTSIDE_RANGE or BUS_AT_FIRST warning (log entry 22). -/
def Image.bpChecks (im : Image) (s : State) (c : Sect) : List Finding :=
  let ws := im.words c
  let bad (code : Nat) (p : BpItem → Bool) : List Finding := (ws.filter p).map (fun i => c.note code i.off)
  bad 0x10 (fun i => decide (5 ≤ i.op)) ++
  bad 0x11 (fun i => i.op != 0 && i.fields.any (fun f => decide (0x1060 ≤ f) && decide (f ≤ 0x1FFD))) ++
  bad 0x12 (fun i => i.op == 0 && i.w != 0) ++
  (im.reach c).flatMap (fun h => (ws.filter (fun i => (s.half h).wordLost c.tile i)).map (fun i =>
    { c.note 0x13 i.off with half := halfNum h })) ++
  (if (im.ofTile 2 c.half c.tile).isEmpty then bad 0x14 (fun i => i.op != 0) else []) ++
  (match im.rangesSect with
   | some r =>
     let rs := im.ranges
     (ws.filter (fun i => i.op != 0 && (rangeAt rs i.pos).isNone)).map (fun i => c.noteAt r.idx 0x20 i.off) ++
     (ws.filter (fun i => i.op != 0 && rs.any (fun q => q.base == i.pos))).flatMap (fun i =>
       (i.fields.filter (fun f => decide (0x1000 ≤ f) && decide (f < 0x1040))).map (fun _ => c.noteAt r.idx 0x21 i.off))
   | none => [])

/-- ATTR_RESERVED. -/
def Image.attrChecks (im : Image) (c : Sect) : List Finding :=
  ((List.range (c.size - 16)).filter (fun i =>
    let b := im.at c (16 + i) 1
    natBit b 3 || natBit b 7)).map (fun i => c.note 0x16 (16 + i))

/-- RANGE_INVALID. -/
def Image.rangeChecks (im : Image) (c : Sect) : List Finding :=
  let rs := im.ranges
  (rs.zipIdx.filter (fun p =>
    let r := p.1
    let before := rs.take p.2
    !(decide (1 ≤ r.len) && decide (r.base + r.len ≤ 4096) && decide (r.edge ≤ 1) && (im.halves == 2 || decide (r.dom ≤ 127))) ||
    before.any (fun q => spansMeet r.base r.len q.base q.len || (q.dom == r.dom && q.edge == r.edge)))).map
      (fun p => c.note 0x15 p.1.off)

/-- Slot `t` of a BP of a tile is carried (R77). -/
def Image.carried (im : Image) (k n b t : Nat) : Bool :=
  let rs := im.ranges
  let it (b s : Nat) : BpItem := ⟨0, b, s, im.word k n b s⟩
  let op := (it b t).op
  let home := rangeAt rs t
  let read := (List.range 4096).any (fun p =>
    let i := it b p
    let own := rangeAt rs p
    i.op != 0 && own.isSome && i.fields.contains t &&
      ((own == home && decide (p ≤ t + 1)) || own != home || op == 0 || op == 2))
  let next := home.isSome && rangeAt rs (t + 1) == home &&
    ((List.range 64).any (fun j =>
      let i := it (b / 64 * 64 + j) (t + 1)
      i.op != 0 && i.fields.contains (0x1000 + b % 64)) ||
     (im.ofTile 0x10 k n).any (fun c => (im.moves c).any (fun m =>
       m.pos == t + 1 && (decodeMove m.w).v && (decodeMove m.w).src == b)))
  read || (op == 2 && home.isSome) || (op == 0 && next)

/-- CKPT_MISSING: in an image built for assured operation every carried slot has CKPT. A tile without BP_INSTR holds NOPs, whose
slots a SWITCH move can carry (R77). -/
def Image.ckptChecks (im : Image) (r : Sect) : List Finding :=
  if im.assured then
    im.parts.flatMap (fun k => (List.range 64).flatMap (fun n =>
      let cs := im.ofTile 1 k n ++ im.ofTile 3 k n ++ im.ofTile 0x10 k n
      let at_ := maxIdx (r.idx :: cs.map (fun c => c.idx))
      when' (!(im.ofTile 1 k n ++ im.ofTile 0x10 k n).isEmpty && (List.range 1024).any (fun b => (List.range 4096).any (fun t =>
        im.carried k n b t && !natBit (im.attr k n b t) 1))) ⟨at_, 0x17, at_, k, 0⟩))
  else []

/-! ## Switches (R128) -/

/-- The checks of a SWITCH body. -/
def Image.swChecks (im : Image) (s : State) (c : Sect) : List Finding :=
  let ms := (im.moves c).map (fun i => (i, decodeMove i.w))
  let bad (code : Nat) (p : SwItem × Move → Bool) : List Finding := (ms.filter p).map (fun i => c.note code i.1.off)
  (im.reach c).flatMap (fun h => (ms.filter (fun i => i.2.v && decide (i.2.src < 0x400) && (s.half h).lost c.tile i.2.src)).map
    (fun i => { c.note 0x13 i.1.off with half := halfNum h })) ++
  bad 0x30 (fun i => i.2.v && srcReserved c.tile i.2.src) ++
  bad 0x31 (fun i => i.2.v && dstReserved c.tile i.2.dst) ++
  bad 0x32 (fun i => !i.2.v) ++
  bad 0x33 (fun i => i.2.v && ms.any (fun j => j.1.pos == i.1.pos && decide (j.1.m < i.1.m) && j.2.v && j.2.dst == i.2.dst)) ++
  (if im.halves = 1 ∨ im.mode ≠ 0 then
    bad 0x34 (fun i => i.2.v && (isBrout i.2.dst || (decide (0x780 ≤ i.2.src) && decide (i.2.src < 0x790)))) else []) ++
  (match im.rangesSect with
   | some r =>
     let rs := im.ranges
     (ms.filter (fun i => i.2.v && decide (i.2.src < 0x400) && rs.any (fun q => q.base == i.1.pos))).map
       (fun i => c.noteAt r.idx 0x35 i.1.off) ++
     (ms.filter (fun i => i.2.v && (rangeAt rs i.1.pos).isNone)).map (fun i => c.noteAt r.idx 0x36 i.1.off)
   | none => [])

/-! ## RUN_PROGRAM (R195, R196, R203, R602) -/

/-- A program word has an OP of R196 and zero in every field that must be 0 (R602). -/
def rpWordOk (w : Nat) : Bool :=
  let op := natField w 0 6
  let wd := natField w 6 5
  let wa := natField w 11 5
  let wb := natField w 16 5
  let hi := natField w 21 11
  let imm := natField w 16 16
  if op = 0x00 ∨ op = 0x1E then w == op
  else if op ≤ 0x0B then hi == 0
  else if (0x10 ≤ op ∧ op ≤ 0x13) ∨ (0x18 ≤ op ∧ op ≤ 0x1B) ∨ (0x20 ≤ op ∧ op ≤ 0x25) ∨ op = 0x27 then true
  else match op with
  | 0x14 | 0x15 => decide (imm < 64)
  | 0x16 => wa == 0
  | 0x1C => wa == 0 && decide (imm < 16)
  | 0x1D => wa == 0 && decide (imm < 512)
  | 0x26 => wd == 0
  | 0x28 => wd == 0 && imm == 0
  | 0x30 | 0x33 | 0x34 | 0x37 => wa == 0 && wb == 0 && hi == 0
  | 0x31 | 0x32 | 0x35 | 0x36 => wb == 0 && hi == 0
  | 0x38 | 0x39 | 0x3A => wd == 0 && wa == 0 && decide (imm < 512)
  | 0x3B => wd == 0 && wa == 0 && decide (imm < 2048)
  | 0x3C => decide (imm < 256)
  | 0x3D => wa == 0 && decide (imm < 256)
  | 0x3E => wa == 0 && decide (imm < 2)
  | 0x3F => wd == 0 && decide (imm < 256)
  | _ => false

/-- The target of the branch or jump at word `p`, if it is one. -/
def rpTarget (w p : Nat) : Option Int :=
  let op := natField w 0 6
  if 0x20 ≤ op ∧ op ≤ 0x25 then some ((p : Int) + 1 + (BitVec.ofNat 16 (natField w 16 16)).toInt)
  else if op = 0x26 ∨ op = 0x27 then some ((p : Int) + 1 + (BitVec.ofNat 21 (natField w 11 21)).toInt)
  else none

/-- RP_SHAPE (R201). -/
def Image.rpShape (im : Image) (c : Sect) : Bool :=
  let r := im.rp c
  decide (r.prog ≤ 16384) && decide (r.descs ≤ 128) && im.at c 0xA 2 == 0 && im.blank (c.off + 0x20) 32 && decide (1 ≤ r.gap) &&
  decide (0x10000 ≤ r.dataO) && r.dataO % 8 == 0 && decide (r.dataO + r.dataN ≤ 0x100000) &&
  c.size == 64 + 32 * r.descs + 4 * r.prog + r.dataN && (r.prog == 0 || decide (r.entry < r.prog))

/-- An enabled descriptor keeps R172 and, against START_VT, R174. -/
def descFits (d : Desc) (start : Nat) : Bool :=
  d.valid && (d.ext || decide (vtDist (BitVec.ofNat 64 start) (BitVec.ofNat 64 d.first) < 2 ^ 48))

/-- The ranges that a descriptor names (R203 DESC_RANGE). -/
def Desc.names (d : Desc) : List (Nat × Nat × Nat) :=
  (0, d.rbase, d.rlen) :: (if d.fall then [(1, d.fbase, d.flen)] else [])

/-- Every range that a descriptor names is the RANGES entry of its domain and edge. -/
def rangesAgree (rs : List Rng) (d : Desc) : Bool :=
  d.names.all (fun n => rs.any (fun r => r.dom == d.dom && r.edge == n.1 && r.base == n.2.1 && r.len == n.2.2))

/-- The checks of a RUN_PROGRAM body. -/
def Image.rpChecks (im : Image) (c : Sect) : List Finding :=
  let r := im.rp c
  let ps := (List.range r.prog).map (fun p => (p, im.at c (r.wordOff p) 4))
  let ds := (List.range r.descs).map (fun i => (i, im.desc c i))
  let dom (d : Nat) : Bool := if c.half = 1 then decide (128 ≤ d) && decide (d < 256) else decide (d < 128)
  when' (!im.rpShape c) (c.note 0x40 0) ++
  when' ((im.of 0x20 c.half).any (fun d => decide (d.idx < c.idx)) || (c.half == 1 && (r.prog != 0 || r.entry != 0)) ||
    (c.half == 0 && r.prog == 0)) (c.note 0x41 0) ++
  (ps.filter (fun p => !rpWordOk p.2)).map (fun p => c.note 0x42 (r.wordOff p.1)) ++
  (ps.filter (fun p => match rpTarget p.2 p.1 with
    | some t => decide (t < 0) || decide ((r.prog : Int) ≤ t)
    | none => false)).map (fun p => c.note 0x43 (r.wordOff p.1)) ++
  (ds.filter (fun d => d.2.en && !descFits d.2 r.start)).map (fun d => c.note 0x44 (rpDescOff d.1)) ++
  (ds.filter (fun d => !dom d.2.dom || (ds.take d.1).any (fun e => e.2.dom == d.2.dom))).map (fun d => c.note 0x45 (rpDescOff d.1)) ++
  (match im.rangesSect with
   | some q =>
     let rs := im.ranges
     (ds.filter (fun d => (d.2.en || rs.any (fun r => r.dom == d.2.dom)) && !rangesAgree rs d.2)).map
       (fun d => c.noteAt q.idx 0x46 (rpDescOff d.1))
   | none => []) ++
  (ds.filter (fun d => !d.2.en)).map (fun d => c.note 0x48 (rpDescOff d.1))

/-- DESC_RANGE for RANGES entries that no descriptor matches, and RP_VT_MISMATCH (R203). While a RUN_PROGRAM section is missing
neither is checked, and the missing section is reported (log entry 22). -/
def Image.rpGroup (im : Image) : List Finding :=
  let cs := im.parts.filterMap (fun k => (im.of 0x20 k).head?)
  let ds := cs.flatMap (fun c => (List.range (im.rp c).descs).map (im.desc c))
  let at_ (l : List Nat) := maxIdx (l ++ cs.map (fun c => c.idx))
  if cs.length < im.parts.length then []
  else
    (match im.rangesSect with
     | some q => (im.ranges.filter (fun r => !ds.any (fun d => d.dom == r.dom && d.names.contains (r.edge, r.base, r.len)))).map
        (fun r => q.noteAt (at_ [q.idx]) 0x46 r.off)
     | none => []) ++
    (match cs with
     | [a, b] => when' ((im.rp a).start != (im.rp b).start || (im.rp a).gap != (im.rp b).gap) ⟨at_ [], 0x47, at_ [], 1, 0xC⟩
     | _ => [])

/-! ## MEM_INIT and strobes (R223, R224, R229, R232) -/

/-- MI_SHAPE (R231). -/
def Image.miShape (im : Image) (c : Sect) : List Finding :=
  let block := if c.tile = 0xFF then [] else
    if c.size < 64 then [c.note 0x50 0]
    else ((List.range 4).filter (fun p => !im.blank (c.off + 16 * p + 8) 8)).map (fun p => c.note 0x50 (16 * p + 8))
  block ++ ((im.recs c).filter (fun r => !r.ok)).map (fun r => c.note 0x50 r.off)

/-- MI_PORTCFG for one port (R217 to R219, R232). -/
def portCfgOk (n mib cfg base : Nat) : Bool :=
  let t := cfgTarget cfg
  let reach := 2 ^ cfgBits cfg * cfgBytes cfg
  natField cfg 24 8 == 0 && natField cfg 4 9 == 0 && natField base 16 16 == 0 && (t != 2 || natField cfg 18 6 != n) &&
  (t == 0 || (decide (cfgBits cfg ≤ 26) &&
    (if t = 3 then decide (natField base 0 16 * 2 ^ 20 + reach ≤ mib * 2 ^ 20) else decide (reach ≤ 0x100000))))

/-- The checks of a MEM_INIT body. -/
def Image.miChecks (im : Image) (c : Sect) : List Finding :=
  let rs := im.recs c
  im.miShape c ++
  when' ((im.ofTile 0x50 c.half c.tile).any (fun d => decide (d.idx < c.idx))) (c.note 0x51 0) ++
  (rs.zipIdx.filter (fun r => (rs.take r.2).any (fun q => spansMeet r.1.tgt r.1.len q.tgt q.len))).map (fun r => c.note 0x51 r.1.off) ++
  (if c.tile = 0xFF then [] else
    ((List.range 4).filter (fun p => !portCfgOk c.tile im.hbmMib (im.at c (16 * p) 4) (im.at c (16 * p + 4) 4))).map
      (fun p => c.note 0x52 (16 * p)))

/-- TARGET, bank tile and hop distance of the port of a strobe. -/
def Image.strobePort (im : Image) (b : Strobe) : Nat × Nat × Nat :=
  let cfg := (im.port b.sect.half b.sect.tile b.port).1
  let t := cfgTile b.sect.tile cfg
  (cfgTarget cfg, t, hops b.sect.tile t)

/-- The index after which the checks of a strobe come: its SWITCH body, the MEM_INIT of its tile, RANGES. -/
def Image.strobeAt (im : Image) (b : Strobe) (r : Nat) : Nat :=
  maxIdx ([b.sect.idx, r] ++ (im.ofTile 0x50 b.sect.half b.sect.tile).map (fun c => c.idx))

/-- MP_DRAIN, MP_BANK_SLOTS, MP_HBM_COUNT and MP_PORT_OFF for the strobes of one half of the image. -/
def Image.strobeChecks (im : Image) (k : Nat) : List Finding :=
  let bs := (im.of 0x10 k).flatMap im.strobes
  let note (b : Strobe) (at_ code : Nat) : Finding := ⟨at_, code, b.sect.idx, k, b.off⟩
  (match im.rangesSect with
   | some q =>
     im.ranges.flatMap (fun r =>
       let here := bs.filter (fun b => r.has b.pos)
       let bank := here.filter (fun b => (im.strobePort b).1 == 1 || (im.strobePort b).1 == 2)
       let key (b : Strobe) : Nat × Nat := ((im.strobePort b).2.1, b.pos + 2 * (im.strobePort b).2.2)
       let late := bank.filter (fun b => decide (r.base + r.len - 1 < b.pos + 4 * (im.strobePort b).2.2))
       let crowd (b : Strobe) : List Strobe := bank.filter (fun d => key d == key b)
       let hbm := here.filter (fun b => (im.strobePort b).1 == 3)
       let mates (b : Strobe) : List Strobe := hbm.filter (fun d => d.sect.tile == b.sect.tile && d.port == b.port)
       late.map (fun b => note b (im.strobeAt b q.idx) 0x53) ++
       (bank.filter (fun b => decide (4 < (crowd b).length))).map (fun b =>
         note b (maxIdx ((crowd b).map (fun d => im.strobeAt d q.idx))) 0x54) ++
       (hbm.filter (fun b => decide (1 < ((mates b).filter (fun d => !d.wr)).length) ||
           decide (64 < ((mates b).filter (fun d => d.wr)).length))).map (fun b =>
         note b (maxIdx ((mates b).map (fun d => im.strobeAt d q.idx))) 0x55))
   | none => []) ++
  (bs.filter (fun b => (im.strobePort b).1 == 0)).map (fun b => note b (im.strobeAt b 0) 0x56)

/-! ## TXE_DESC (R252, R253, R266, R278 to R281) -/

/-- TD_SHAPE. -/
def Image.tdShape (im : Image) (c : Sect) : Bool :=
  let np := im.portCount c
  let nt := im.tmplCount c
  decide (np ≤ 256) && decide (nt ≤ 256) && im.blank (c.off + 4) 12 && c.size == 16 + 16 * np + 32 * nt &&
  (List.range np).all (fun i => im.at c (portOff i + 12) 4 == 0) &&
  (List.range nt).all (fun t => im.at c (im.tmplOff c t + 1) 1 == 0 && decide (im.at c (im.tmplOff c t + 3) 1 < 8))

/-- The fields of a port record are in range (R279). -/
def PortRec.ok (p : PortRec) : Bool :=
  let w := 8 * 2 ^ p.wid
  decide (p.tile < 64) && decide (p.wid < 4) && decide (p.inB + w + 2 ≤ 127) && decide (p.outB + w + 2 ≤ 127) &&
  decide (1 ≤ p.msg) && decide (p.msg ≤ 4096) && p.msg % 2 ^ p.wid == 0

/-- Design bits that a port uses: W + 3 from a base. -/
def PortRec.bits (p : PortRec) : Nat := 8 * 2 ^ p.wid + 3

/-- Two ports of one tile share a bit. -/
def PortRec.clash (p q : PortRec) : Bool :=
  p.tile == q.tile && (spansMeet p.inB p.bits q.inB q.bits || spansMeet p.outB p.bits q.outB q.bits)

/-- An endpoint code is well formed and names a declared port (R252, R281). -/
def endpointOk (ps : List PortRec) (c : Nat) : Bool :=
  match epKind c with
  | 0 => c == 0
  | 1 => decide (epNum c < 64)
  | 2 => ps.any (fun p => p.port == epNum c)
  | _ => decide (epNum c < 4096) && decide (epNum c / 256 ≤ 11) && decide (1 ≤ c % 256)

/-- The kinds of SRC and DST that a handler takes (R266). -/
def handlerOk (h src dst : Nat) : Bool :=
  let s := epKind src
  let d := epKind dst
  match h with
  | 1 => s == 1 && (d == 2 || d == 3)
  | 2 => (s == 1 && d == 2) || ((s == 2 || s == 3) && d == 1)
  | 3 => (s == 2 || s == 3) && d == 1
  | 4 => s == 1 && d == 0
  | 5 => s == 0 && d == 1
  | 6 => (s == 0 || s == 2) && d == 0
  | _ => false

/-- A template record keeps R266 and R280, over the declared ports. -/
def tmplOk (ps : List PortRec) (b : Bytes) : Bool :=
  let t := tmplOf b
  let n := bn b 0xD 1
  let lists := t.handler == 4 || t.handler == 5
  let msgOf (i : Nat) : Nat := match ps.find? (fun (p : PortRec) => p.port == i) with
    | some p => p.msg
    | none => 0
  handlerOk t.handler t.src t.dst && endpointOk ps t.src && endpointOk ps t.dst && decide (t.prio < 8) &&
  (decide (t.cq < 64) || t.cq == 0xFF) && (if lists then decide (1 ≤ n) && decide (n ≤ 8) else n == 0) &&
  t.list.all (fun i => ps.any (fun p => p.port == i)) && ((b.drop (0x10 + n)).take (8 - n)).all (fun v => v == 0#8) &&
  (if t.handler = 4 then (t.list.zip t.lens).all (fun (p : Nat × Nat) => decide (1 ≤ p.2) && decide ((8 * p.2 : Nat) ≤ msgOf p.1)) &&
      ((b.drop (0x18 + n)).take (8 - n)).all (fun v => v == 0#8)
    else bn b 0x18 8 == 0) &&
  ((t.handler == 2 && epKind t.src == 2) || t.count == 0) &&
  !(t.handler == 6 && epKind t.src == 2 && decide (4 < msgOf (epNum t.src))) &&
  !(!t.toNs && t.timeout != 0 && t.firstPort.isNone)

/-- A template names a port. -/
def Tmpl.namesPort (t : Tmpl) (p : Nat) : Bool := t.src == dport p || t.dst == dport p || t.list.contains p

/-- A domain has a RANGES entry. -/
def Image.ranged (im : Image) (d : Nat) : Bool := im.ranges.any (fun r => r.dom == d)

/-- The checks of a TXE_DESC body. -/
def Image.tdChecks (im : Image) (c : Sect) : List Finding :=
  let ps := im.portRecs c
  let units := ps.foldl (fun (a : Nat) (p : PortRec) => a + p.inN + p.outN) 0
  let ts := im.tmpls c
  when' (!im.tdShape c) (c.note 0x60 0) ++
  (ps.zipIdx.filter (fun p => !p.1.ok || (ps.take p.2).any (fun q => q.port == p.1.port || p.1.clash q))).map
    (fun p => c.note 0x61 (portOff p.2)) ++
  (match im.rangesSect with
   | some q => (ps.zipIdx.filter (fun p => !im.ranged p.1.dom)).map (fun p => c.noteAt q.idx 0x61 (portOff p.2))
   | none => []) ++
  (ps.zipIdx.filter (fun p => decide (p.1.inN * 256 < p.1.msg) || decide (p.1.outN * 256 < p.1.msg))).map
    (fun p => c.note 0x62 (portOff p.2)) ++
  when' (decide (3072 < units)) (c.note 0x62 0) ++
  ((List.range (im.tmplCount c)).filter (fun t => !tmplOk ps (im.tmplBytes c t))).map (fun t => c.note 0x63 (im.tmplOff c t)) ++
  when' ((im.of 0x30 c.half).any (fun d => decide (d.idx < c.idx))) (c.note 0x64 0) ++
  (ps.zipIdx.filter (fun p => !ts.any (fun t => t.namesPort p.1.port))).map (fun p => c.note 0x68 (portOff p.2))

/-! ## CAP_DESC (R290, R298, R305, R311, R317, R326, R330, R331) -/

/-- A descriptor's own fields are in range. -/
def descOk (b : Bytes) : Bool :=
  b.length == 64 * descEntries b &&
  (match bn b 0 1 with
   | 1 => (trgParse b).isSome
   | 2 => capShape b
   | 3 => (sigParse b).isSome
   | 4 => (redParse b (2 ^ 17)).isSome
   | 5 => (plyParse b).isSome
   | _ => false)

/-- The domain that a descriptor names, if it names one. -/
def descDom (b : Bytes) : Option Nat :=
  match bn b 0 1 with
  | 1 => if natBit (bn b 0x26 2) 0 then none else some (bn b 3 1)
  | 2 => some (bn b 2 1)
  | 5 => some (bn b 2 1)
  | _ => none

/-- The lists that a CAPTURE names are blocks of their kinds, and its reductions lie within its signals (R331). -/
def Image.capRefs (im : Image) (c : Sect) (b : Bytes) : Bool :=
  let find (i kind : Nat) : Option Bytes :=
    match (im.blocks c).find? (fun k => k.idx == i) with
    | some k => if bn (im.blockBytes c k) 0 1 = kind then some (im.blockBytes c k) else none
    | none => none
  match bn b 1 1 with
  | 1 => true
  | 0 => (find (bn b 6 2) 3).isSome
  | _ => match find (bn b 6 2) 3, find (bn b 8 2) 4 with
    | some sg, some rd => (redParse rd (bn sg 2 2)).isSome
    | _, _ => false

/-- The input bits of a port as keys tile × 128 + bit. -/
def PortRec.inKeys (p : PortRec) : List Nat := (List.range p.bits).map (fun i => p.tile * 128 + p.inB + i)

/-- The checks of a CAP_DESC body. -/
def Image.cdChecks (im : Image) (c : Sect) : List Finding :=
  let bs := im.blocks c
  let dup := (im.of 0x31 c.half).any (fun d => decide (d.idx < c.idx))
  let plays := im.plays c
  when' dup (c.note 0x70 0) ++ (bs.filter (fun b => !b.ok)).map (fun b => c.note 0x70 b.off) ++
  (bs.zipIdx.filter (fun b => (bs.take b.2).any (fun d => spansMeet b.1.idx b.1.n d.idx d.n))).map (fun b => c.note 0x71 b.1.off) ++
  (bs.filter (fun b => !descOk (im.blockBytes c b))).map (fun b => c.note 0x72 b.off) ++
  (match im.rangesSect with
   | some q => (bs.filter (fun b => match descDom (im.blockBytes c b) with
      | some d => !im.ranged d
      | none => false)).map (fun b => c.noteAt q.idx 0x72 b.off)
   | none => []) ++
  (bs.filter (fun b => bn (im.blockBytes c b) 0 1 == 2 && !im.capRefs c (im.blockBytes c b))).map (fun b => c.note 0x73 b.off) ++
  (match (im.of 0x30 c.half).head? with
   | some t =>
     let keys := (im.portRecs t).flatMap PortRec.inKeys
     (plays.filter (fun p => p.2.bits.any (fun b => keys.contains b))).map (fun p => c.noteAt t.idx 0x74 p.1.off)
   | none => []) ++
  (plays.zipIdx.flatMap (fun p => ((plays.take p.2).filter (fun q => p.1.2.bits.any (fun b => q.2.bits.contains b))).map
    (fun _ => c.note 0x78 p.1.1.off)))

/-! ## FABRIC (R393, R394, R406, R418) -/

/-- The fields of a channel record are in range (R406). -/
def ChRec.ok (r : ChRec) : Bool :=
  decide (r.ch < 32) && decide (r.tile < 64) && decide (r.flags < 2) && decide (r.inC ≤ 128) && decide (r.inF + r.inC ≤ 128) &&
  decide (r.strb ≤ r.inC) && decide (r.outC ≤ 128) && decide (r.outF + r.outC ≤ 128) && decide (4 ≤ r.log2) &&
  decide (r.log2 ≤ 10) && r.rsvd == 0 && r.ring % 32 == 0 && decide (0x80000 ≤ r.ring) &&
  decide (r.ring + 32 * 2 ^ r.log2 ≤ 0x100000)

/-- Two channels share a number, a ring byte or a bit. -/
def ChRec.clash (r q : ChRec) : Bool :=
  r.ch == q.ch || spansMeet r.ring (32 * 2 ^ r.log2) q.ring (32 * 2 ^ q.log2) ||
  (r.tile == q.tile && ((decide (0 < r.inC) && decide (0 < q.inC) && spansMeet r.inF r.inC q.inF q.inC) ||
    (decide (0 < r.outC) && decide (0 < q.outC) && spansMeet r.outF r.outC q.outF q.outC)))

/-- A channel and a design message port share a bit. -/
def ChRec.meetsPort (r : ChRec) (p : PortRec) : Bool :=
  r.tile == p.tile && ((decide (0 < r.inC) && spansMeet r.inF r.inC p.inB p.bits) ||
    (decide (0 < r.outC) && spansMeet r.outF r.outC p.outB p.bits))

/-- The checks of a FABRIC body. BS_CRC out of agreement with the frames counts as a header field out of range. -/
def Image.fbChecks (im : Image) (c : Sect) : List Finding :=
  let b := im.body c
  let h := bsHead b
  let frames := (b.drop (64 + 16 * h.chans)).take (136 * h.frames)
  let fs := bsFrames frames h.frames
  let rs := im.chRecs c
  when' (!bsShape b h true false || c.size != h.size || (crc32c frames).toNat != h.crc ||
    (im.of 0x40 c.half).any (fun d => decide (d.idx < c.idx))) (c.note 0x80 0) ++
  (if Config.dbSupported h.db then [] else (im.reach c).map (fun k => { c.note 0x81 0 with half := halfNum k })) ++
  (fs.zipIdx.filter (fun f => !frameOk f.1 false allCols)).map (fun f => c.note 0x82 (64 + 16 * h.chans + 136 * f.2)) ++
  when' (ramRefused h.db (writeFrames [] allCols fs) allCols) (c.note 0x82 0) ++
  when' (longBreach (writeFrames [] allCols fs)) (c.note 0x83 0) ++
  (rs.zipIdx.filter (fun r => !r.1.ok || (rs.take r.2).any (fun q => r.1.clash q))).map (fun r => c.note 0x84 r.1.off) ++
  (match im.rangesSect with
   | some q => (rs.filter (fun r => !im.ranged r.dom)).map (fun r => c.noteAt q.idx 0x84 r.off)
   | none => []) ++
  (match (im.of 0x30 c.half).head? with
   | some t => (rs.filter (fun r => (im.portRecs t).any (fun p => r.meetsPort p))).map (fun r => c.noteAt t.idx 0x84 r.off)
   | none => []) ++
  (match (im.of 0x31 c.half).head? with
   | some d => rs.flatMap (fun r =>
      ((im.plays d).filter (fun p => p.2.bits.any (fun k =>
        k / 128 == r.tile && decide (r.inF ≤ k % 128) && decide (k % 128 < r.inF + r.inC)))).map (fun _ => c.noteAt d.idx 0x88 r.off))
   | none => [])

/-! ## All checks (R603) -/

/-- The checks of one body. -/
def Image.bodyChecks (im : Image) (s : State) (c : Sect) : List Finding :=
  im.shapes c ++
  (match c.typ with
   | 1 => im.bpChecks s c
   | 3 => im.attrChecks c
   | 5 => if (im.rangesSect.map (fun r => r.idx)) = some c.idx then im.rangeChecks c ++ im.ckptChecks c else []
   | 0x10 => im.swChecks s c
   | 0x20 => im.rpChecks c
   | 0x30 => im.tdChecks c
   | 0x31 => im.cdChecks c
   | 0x40 => im.fbChecks c
   | 0x50 => im.miChecks c
   | _ => [])

/-- Sections that the image lacks (R603 step 4). -/
def Image.missing (im : Image) : List Finding :=
  when' im.rangesSect.isNone ⟨65536, 0x0C, 0xFFFE, 0, 0⟩ ++
  im.parts.flatMap (fun k => when' (im.of 0x20 k).isEmpty ⟨65536, 0x41, 0xFFFE, k, 0⟩)

/-- The checks of the bodies, by the body among whose checks each comes, then by code (R603 step 3). -/
def Image.bodies (im : Image) (s : State) : List Finding :=
  sortKey (fun f => f.at_ * 256 + f.code)
    (im.sects.flatMap (im.bodyChecks s) ++ im.rpGroup ++ im.parts.flatMap im.strobeChecks)

/-- Every finding in the order of R603, up to and with the first error. -/
def uptoError : List Finding → List Finding
  | [] => []
  | f :: l => if isWarn f.code then f :: uptoError l else [f]

/-- A list holds an error. -/
def hasError (l : List Finding) : Bool := l.any (fun f => !isWarn f.code)

/-- What the loader meets (R603): a step is reached only when the ones before it have passed. -/
def Image.check (im : Image) (s : State) : List Finding :=
  let a := uptoError (im.header s)
  if hasError a then a
  else
    let b := uptoError im.table
    if hasError b then b
    else uptoError (im.bodies s ++ im.missing)

end Sys2Proof.Machine
end

