-- ==== Sys2Proof/Machine/NetTime.lean ====
section
/-!
DEFINITION. Machine/NetTime.lean: network time: the PHC, PTP messages, the servos of two domains, pulse outputs, stamp
queues and the time bound to the design (R487 to R513).

Times of the servos are integers in units of 2^-17 ns, message times in units of 2^-16 ns, rates in units of 2^-36 ppb.
-/

namespace Sys2Proof.Machine

/-! ## The clock (R487 to R489, R503) -/

/-- The modulus of the PHC in units of 2^-32 ns. -/
def phcMod : Nat := 2 ^ 48 * 1000000000 * 2 ^ 32

/-- The PHC advances by `k` tenths of a nanosecond of its clock (R488): the remainder is carried exactly. -/
def Half.phcAdvance (x : Half) (k : Nat) : Half :=
  let d := x.ptm.rem + k * 2 ^ 32 * (4096000000000 + (x.reg Reg.ptmRate).toInt).toNat
  { x with ptm := { x.ptm with
    time := (x.ptm.time + d / 40960000000000) % phcMod, rem := d % 40960000000000 } }

/-- A time as an integer of 2^-16 ns. -/
def ptpInt (t : PtpTime) : Int := (ptpUnits t / 2 ^ 16 : Nat)

/-- An integer division by 2^`sh` that the specification does not round: the result is one of the two neighbours
(log entry 4). -/
def Half.halve (x : Half) (v : Int) (sh : Nat) : Int × Half :=
  if v % (2 ^ sh : Nat) = 0 then (v / (2 ^ sh : Nat), x)
  else
    let (b, y) := x.fresh 1
    (v / (2 ^ sh : Nat) + (b.toNat : Int), y)

/-- A bit of `PTM_EVT` sets, and the vector is raised (R509). -/
def Half.ptmEvent (x : Half) (i : Nat) : Half :=
  if x.rbit Reg.ptmEvt i then x else (x.setRBit Reg.ptmEvt i true).irq Reg.ptmIrq

/-! ## Pulse outputs (R504, R505, R511) -/

def Half.tpo (x : Half) (k : Nat) : Tpo := sget x.ptm.tpo k Tpo.zero
def Half.setTpo (x : Half) (k : Nat) (t : Tpo) : Half :=
  { x with ptm := { x.ptm with tpo := sput x.ptm.tpo k Tpo.zero t } }

/-- STATE of `PTM_TPO_STAT_k`: 1 ARMED or 2 RUNNING means that the output is armed. -/
def Half.tpoArmed (x : Half) (k : Nat) : Bool := x.rfld (Reg.ptmTpoStat k) 28 4 == 1 || x.rfld (Reg.ptmTpoStat k) 28 4 == 2

/-- Set STATE and CODE. -/
def Half.tpoStat (x : Half) (k st code : Nat) : Half := (x.setRFld (Reg.ptmTpoStat k) 28 4 st).setRFld (Reg.ptmTpoStat k) 24 4 code

/-- The period, width and number of pulses of an output; none without end. -/
def Half.tpoPeriod (x : Half) (k : Nat) : Nat := (x.reg (Reg.ptmTpoPeriod k)).toNat
def Half.tpoWidth (x : Half) (k : Nat) : Nat := (x.reg (Reg.ptmTpoWidth k)).toNat
def Half.tpoCount (x : Half) (k : Nat) : Option Nat :=
  if x.tpoPeriod k = 0 then some 1
  else if (x.reg (Reg.ptmTpoCount k)).toNat = 0 then none
  else some (x.reg (Reg.ptmTpoCount k)).toNat

/-- The time in ns of the next edge of an armed output. -/
def Half.tpoNext (x : Half) (k : Nat) : Nat :=
  let t := x.tpo k
  if t.high then t.start + (t.n - 1) * x.tpoPeriod k + x.tpoWidth k else t.start + t.n * x.tpoPeriod k

/-- The falling edge of an output: the last one completes it, else a DISARM that waited takes effect. -/
def Half.tpoFall (x : Half) (k : Nat) : Half :=
  let y := x.setTpo k { x.tpo k with high := false }
  if y.tpoCount k = some (y.tpo k).n then (y.tpoStat k 3 0).ptmEvent 3
  else if (y.tpo k).disarm then y.tpoStat k 3 3
  else y

/-- The next edge of an output, if its time has come. -/
def Half.tpoEdge (x : Half) (k : Nat) : Half :=
  if x.tpoArmed k && decide (x.tpoNext k * 2 ^ 32 ≤ x.ptm.time) then
    if (x.tpo k).high then x.tpoFall k
    else (x.setTpo k { x.tpo k with n := (x.tpo k).n + 1, high := true }).tpoStat k 2 0
  else x

/-- The PHC was stepped or set, or fallow ended: an armed output goes on by its schedule from the new time (R505). An
output whose edges have all been passed over is DONE. -/
def Half.tpoStep1 (x : Half) (k : Nat) : Half :=
  if x.tpoArmed k then
    let t := x.tpo k
    let now := x.ptm.time / 2 ^ 32
    let past := if now < t.start then 0 else if x.tpoPeriod k = 0 then 1 else (now - t.start) / x.tpoPeriod k + 1
    let n := match x.tpoCount k with
      | some c => min past c
      | none => past
    let high := decide (0 < n) && decide (now < t.start + (n - 1) * x.tpoPeriod k + x.tpoWidth k)
    let y := x.setTpo k { t with n := n, high := high }
    if high then y.tpoStat k 2 0
    else if y.tpoCount k = some n then y.tpoStat k 3 0
    else if t.disarm then y.tpoStat k 3 3
    else y.tpoStat k (if n = 0 then 1 else 2) 0
  else x

/-- The step rule for every output. -/
def Half.tpoStep (x : Half) : Half := (List.range 4).foldl Half.tpoStep1 x

/-- ARM (R504, R505): BAD_PARAM before LATE_START; a refused ARM changes nothing but CODE. -/
def Half.tpoArm (x : Half) (k : Nat) (v : Word) : Half :=
  let p := x.tpoPeriod k
  let w := x.tpoWidth k
  let ns := (x.reg (Reg.ptmTpoNs k)).toNat
  let start := x.reg64 (Reg.ptmTpoSecLo k) (Reg.ptmTpoSecHi k) * 1000000000 + ns
  if w < 4 ∨ (p ≠ 0 ∧ (p < 8 ∨ p < w + 4)) ∨ 999999999 < ns then x.setRFld (Reg.ptmTpoStat k) 24 4 2
  else if start * 2 ^ 32 < x.ptm.time + 1000 * 2 ^ 32 then x.setRFld (Reg.ptmTpoStat k) 24 4 1
  else ((x.setTpo k ⟨start, 0, false, false⟩).setRBit (Reg.ptmTpoCtrl k) 29 (wbit v 29)).tpoStat k 1 0

/-- DISARM (R505): at once between pulses, else after the falling edge. -/
def Half.tpoDisarm (x : Half) (k : Nat) : Half :=
  if x.tpoArmed k then
    if (x.tpo k).high then x.setTpo k { x.tpo k with disarm := true } else x.tpoStat k 3 3
  else x

/-- A write of `PTM_TPO_CTRL_k` (R511). -/
def Half.tpoCtrlWrite (x : Half) (k : Nat) (v : Word) : Half :=
  if x.tpoArmed k then (if wbit v 30 then x.tpoDisarm k else x)
  else if wbit v 31 then x.tpoArm k v
  else x.setRBit (Reg.ptmTpoCtrl k) 29 (wbit v 29)

/-! ## Domains (R491, R496, R510) -/

def Half.pdom (x : Half) (d : Nat) : PtpDom := sget x.ptm.dom d PtpDom.zero
def Half.setPdom (x : Half) (d : Nat) (p : PtpDom) : Half :=
  { x with ptm := { x.ptm with dom := sput x.ptm.dom d PtpDom.zero p } }

/-- The active domain, STEPPED, SELECT. -/
def Half.ptpActive (x : Half) : Nat := x.rfld Reg.ptmStatus 0 1
def Half.stepped (x : Half) : Bool := x.rbit Reg.ptmStatus 1
/-- Domain `d` may become active under SELECT (R501). -/
def Half.candidate (x : Half) (d : Nat) : Bool :=
  match x.rfld Reg.ptmCtrl 4 2 with
  | 1 => d == 0
  | 2 => d == 1
  | _ => true

/-- A domain is valid (R500). -/
def Half.ptpValid (x : Half) (d : Nat) : Bool :=
  let p := x.pdom d
  p.master.isSome && (p.st == 4 || p.st == 5) && p.fresh

/-- Show the states of the servos and SYNCED (R496, R499). -/
def Half.ptmShow (x : Half) : Half :=
  let a := x.ptpActive
  let show_ (d : Nat) : Nat := if x.ptm.holdover && a == d then 6 else (x.pdom d).st
  let synced := if x.ptm.holdover then x.ptm.hold else (x.pdom a).st == 5
  ((x.setRFld Reg.ptmStatus 28 4 (show_ 0)).setRFld Reg.ptmStatus 24 4 (show_ 1)).setRBit Reg.ptmStatus 2 synced

/-- The active domain enters HOLDOVER, `was` being its state before (R499, R501). -/
def Half.enterHoldover (x : Half) (was : Nat) : Half :=
  let y := { x with ptm := { x.ptm with holdover := true, hold := was == 5 && x.rfld Reg.ptmCtrl 16 8 != 0 } }
  y.ptmEvent 2

/-- Selection (R501): with no valid candidate the active domain enters HOLDOVER. Before the first step no domain is
active, and a domain that makes its rate estimate is not yet to be valid. -/
def Half.ptpSelect (x : Half) (was : Nat) : Half :=
  let a := x.ptpActive
  let st := (x.pdom a).st
  let any := (x.candidate 0 && x.ptpValid 0) || (x.candidate 1 && x.ptpValid 1)
  (if x.stepped && !x.ptm.holdover && st != 3 && st != 0 && !any then x.enterHoldover was else x).ptmShow

/-- Domain `d` takes over, or the active one leaves HOLDOVER (R501). -/
def Half.takeActive (x : Half) (d : Nat) : Half :=
  let a := x.ptpActive
  let old := x.pdom a
  let y := if a = d then x else (x.setPdom a { old with st := if old.st = 5 then 4 else old.st }).ptmEvent 1
  let r := (x.reg Reg.ptmRate).toInt * 2 ^ 24
  let y := y.setPdom d { y.pdom d with st := 4, rInt := r, good := 0, bad := 0 }
  ({ y with ptm := { y.ptm with holdover := false, hold := false } } : Half).setRFld Reg.ptmStatus 0 1 d

/-- A domain that is enabled and whose servo runs starts in LISTEN; else it is OFF. -/
def Half.servoRestart (x : Half) (d : Nat) : Half :=
  x.setPdom d (if x.rbit Reg.ptmCtrl 0 && x.rbit (Reg.ptmDomCfg d) 31 then { PtpDom.zero with st := 1, seqId := (x.pdom d).seqId }
    else { PtpDom.zero with seqId := (x.pdom d).seqId })

/-- A message is ignored and counted for the domain it names by number and majorSdoId, or for domain A (R491). -/
def Half.ptpCount (x : Half) (num sdo : Nat) : Half :=
  let d := [0, 1].find? (fun d => x.rfld (Reg.ptmDomCfg d) 16 8 == num && x.rfld (Reg.ptmDomCfg d) 24 4 == sdo)
  x.countFld (Reg.ptmDomCnt (d.getD 0)) 0 16 1

/-- The message is ignored and counted (R491). -/
def Half.ptpIgnore (x : Half) (m : PtpMsg) : Half := x.ptpCount m.domainNumber.toNat m.majorSdo.toNat

/-- The enabled domain that a message of version 2 matches, its interval within `lo` to 4 (R490, R491). -/
def Half.matched (x : Half) (m : PtpMsg) (lo : Int) : Option Nat :=
  if m.version = 2#4 ∧ lo ≤ m.logInterval ∧ m.logInterval ≤ 4 then
    [0, 1].find? (fun d => x.rbit (Reg.ptmDomCfg d) 31 && x.rfld (Reg.ptmDomCfg d) 16 8 == m.domainNumber.toNat &&
      x.rfld (Reg.ptmDomCfg d) 24 4 == m.majorSdo.toNat)
  else none

/-- Handle a message of a domain's master; every other one is ignored (R491). The port and the servos stop in fallow. -/
def Half.fromMaster (x : Half) (m : PtpMsg) (f : Half → Nat → Half) : Half :=
  if x.sys.fallow.isSome then x
  else
    match x.matched m (-7) with
    | some d =>
      if (x.pdom d).master = some (m.clockId, m.portNumber) then f x d else x.ptpIgnore m
    | none => x.ptpIgnore m

/-- The identity that FILTER admits. -/
def Half.filterId (x : Half) (d : Nat) : BitVec 64 × BitVec 16 :=
  (BitVec.ofNat 64 (x.reg64 (Reg.ptmDomMid d 0) (Reg.ptmDomMid d 1)), (x.reg (Reg.ptmDomMport d)).setWidth 16)

/-- What an Announce of the master shows (R510). -/
def Half.announced (x : Half) (d : Nat) (m : PtpMsg) (utc : BitVec 16) (cls steps : BitVec 8) : Half :=
  (x.setReg64 (Reg.ptmDomCur d 0) (Reg.ptmDomCur d 1) m.clockId.toNat).setReg (Reg.ptmDomInfo d)
    (BitVec.ofNat 32 (utc.toNat * 65536 + cls.toNat * 256 + steps.toNat))

/-- An Announce (R496): a domain in LISTEN takes its sender for a master, under FILTER only the one named. -/
def Half.announce (x : Half) (m : PtpMsg) (utc : BitVec 16) (cls steps : BitVec 8) : Half :=
  if x.sys.fallow.isSome then x
  else
    match x.matched m (-3) with
    | some d =>
      let p := x.pdom d
      let id := (m.clockId, m.portNumber)
      if p.st = 0 then x
      else if p.master = some id then x.announced d m utc cls steps
      else if p.master = none ∧ (x.rbit (Reg.ptmDomCfg d) 30 = false ∨ x.filterId d = id) then
        ((x.setPdom d { p with st := 2, master := some id }).announced d m utc cls steps).ptmShow
      else x.ptpIgnore m
    | none => x.ptpIgnore m

/-! ## The servo (R497 to R499) -/

/-- RATE takes a value of 2^-36 ppb; a value beyond its width is one the specification does not state. -/
def Half.setRate (x : Half) (v : Int) : Half :=
  let (r, y) := x.halve v 24
  if -(2 ^ 31) ≤ r ∧ r < 2 ^ 31 then y.setReg Reg.ptmRate (BitVec.ofInt 32 r)
  else
    let (w, z) := y.fresh 32
    z.setReg Reg.ptmRate w

/-- The stamps a domain still holds move with the step, so that they stay on the clock's new scale. -/
def PtpDom.shift (p : PtpDom) (by_ : Int) : PtpDom :=
  { p with sync := p.sync.map (fun e => (e.1, e.2 + by_)), last := p.last.map (fun e => (e.1, e.2 + by_))
           req := p.req.map (fun e => (e.1, e.2 + by_)) }

/-- The PHC is moved by `v` units of 2^-32 ns. -/
def Half.movePhc (x : Half) (v : Int) : Half :=
  ({ x with ptm := { x.ptm with time := (((x.ptm.time : Int) + v) % (phcMod : Int)).toNat } } : Half).tpoStep

/-- The first sample steps the PHC by −o (R498); `o` is in units of 2^-17 ns. Stamps are held in whole units of 2^-16 ns;
a half unit is rounded as the specification leaves it. -/
def Half.firstStep (x : Half) (d : Nat) (o : Int) : Half :=
  let (ns, y) := x.halve (-o) 17
  let (u, y) := y.halve (-o) 1
  let y := (y.setPdom 0 ((y.pdom 0).shift u)).setPdom 1 ((y.pdom 1).shift u)
  let y := (y.movePhc (-o * 2 ^ 15)).setReg64 Reg.ptmStepLo Reg.ptmStepHi (BitVec.ofInt 64 ns).toNat
  let y := (y.setReg Reg.ptmRate (y.reg Reg.ptmNominal)).setRFld Reg.ptmStatus 0 2 (2 + d)
  ({ y with ptm := { y.ptm with holdover := false, hold := false } } : Half).ptmEvent 0

/-- The rate estimate of three Syncs (R498), in units of 2^-36 ppb: e is the quotient less 1; the specification does not
round it. -/
def Half.rateEst (x : Half) (a c : Int × Int) : Int × Half :=
  let den := c.1 - a.1
  let num := ((c.2 - a.2) - den) * (1000000000 * 2 ^ 36)
  if den = 0 then
    let (w, y) := x.fresh 64
    (w.toInt, y)
  else if num % den = 0 then (num / den, x)
  else
    let (b, y) := x.fresh 1
    (num / den + (b.toNat : Int), y)

/-- A Sync of a domain in RATE_EST (R498). -/
def Half.estimate (x : Half) (d : Nat) (t : Int × Int) : Half :=
  let p := x.pdom d
  match p.est with
  | [a, _] =>
    let (e, y) := x.rateEst a t
    let r := (y.reg Reg.ptmNominal).toInt * 2 ^ 24 - e
    let y := y.setPdom d { p with st := 4, rInt := r, est := [], good := 0, bad := 0 }
    if y.ptpActive = d ∧ y.stepped = true ∧ y.ptm.holdover = false then y.setRate r else y
  | l => x.setPdom d { p with est := l ++ [t] }

/-- The lock count of the active domain (R499). -/
def Half.lockCount (x : Half) (d : Nat) (o : Int) : Half :=
  let p := x.pdom d
  if (o.natAbs : Nat) ≤ x.rfld Reg.ptmServo 16 8 * 2 ^ 17 then
    x.setPdom d { p with good := p.good + 1, bad := 0, st := if p.st = 4 ∧ 8 ≤ p.good + 1 then 5 else p.st }
  else
    if p.st = 5 ∧ 4 ≤ p.bad + 1 then x.setPdom d { p with good := 0, bad := 0, st := 4 }
    else x.setPdom d { p with good := 0, bad := p.bad + 1 }

/-- The proportional and integral correction of RATE (R497). -/
def Half.steer (x : Half) (d : Nat) (o : Int) : Half :=
  let p := x.pdom d
  let part (k : Nat) : Int := o * 2 ^ ((19 : Int) - (k : Int) - p.logSync).toNat
  let r := p.rInt - part (x.rfld Reg.ptmServo 12 4)
  let m : Int := ((max 1 (x.rfld Reg.ptmServo 24 8) * 1000 * 2 ^ 36 : Nat) : Int)
  ((x.setPdom d { p with rInt := r }).setRate (max (-m) (min m (r - part (x.rfld Reg.ptmServo 8 4))))).lockCount d o

/-- OFFSET and DELAY as they are shown (R510). -/
def Half.showOffset (x : Half) (d : Nat) (o : Int) : Half :=
  let (v, y) := x.halve o 17
  y.setReg (Reg.ptmDomOffset d) (BitVec.ofInt 32 (max (-(2 ^ 31)) (min (2 ^ 31 - 1) v)))
def Half.showDelay (x : Half) (d : Nat) (v : Int) : Half :=
  let (n, y) := x.halve v 17
  if 0 ≤ n ∧ n < 2 ^ 32 then y.setReg (Reg.ptmDomDelay d) (BitVec.ofInt 32 n)
  else
    let (w, z) := y.fresh 32
    z.setReg (Reg.ptmDomDelay d) w

/-- Who is to be active at a sample of `d` (R501). -/
def Half.sampleSelect (x : Half) (d : Nat) : Half :=
  let a := x.ptpActive
  let force := x.rfld Reg.ptmCtrl 4 2 == 1 || x.rfld Reg.ptmCtrl 4 2 == 2
  if x.candidate d && x.ptpValid d && (x.ptm.holdover || (a != d && (force || !x.ptpValid a))) then x.takeActive d else x

/-- An offset sample of domain `d` from the Sync with times `t` (R497, R498); `fresh` when that Sync has just come. -/
def Half.sample (x : Half) (d : Nat) (t : Int × Int) (dly : Int) : Half :=
  let o := 2 * (t.2 - t.1) - dly
  let y := (x.showOffset d o).countFld (Reg.ptmDomCnt d) 16 16 1
  let p := y.pdom d
  let z :=
    if y.stepped = false ∧ y.candidate d = true then
      (y.setPdom d { p with st := 3, est := [] }).firstStep d o
    else if p.st = 2 then y.setPdom d { p with st := 3, est := [] }
    else if p.st = 3 then y.estimate d t
    else
      let y := y.sampleSelect d
      if y.ptpActive = d ∧ y.stepped = true ∧ y.ptm.holdover = false then y.steer d o else y
  z.ptpSelect p.st

/-- A Sync is complete: its t1 is known. -/
def Half.syncDone (x : Half) (d : Nat) (t1 t2 : Int) (log : Int) : Half :=
  let y := x.setPdom d { x.pdom d with sync := none, last := some (t1, t2), logSync := log }
  match (y.pdom d).delay with
  | some dly => y.sample d (t1, t2) dly
  | none => y

/-! ## Commands: messages -/

/-- PTM_TIME_SEC_LO_READ (R489): the read latches the whole PHC. -/
def Half.ptmTimeRead (x : Half) : Word × Half :=
  let t := x.phc
  (t.sec.setWidth 32,
   (((x.setReg (Reg.ptmTime 0) (t.sec.setWidth 32)).setReg (Reg.ptmTime 1) ((t.sec >>> 32).setWidth 32)).setReg (Reg.ptmTime 2)
     t.ns).setReg (Reg.ptmTime 3) (t.frac.setWidth 32))

/-- A read answered to its master. -/
def Half.answerWord (x : Half) (m : Master) (r : Half → Word × Half) : Half :=
  let (v, y) := r x
  y.readAns m 0#2 (leBytes 4 v.toNat)

/-- PTM_TIME_SEC_LO_READ (R489). -/
def execPtmTimeSecLoRead (h : HalfId) (m : Master) (s : State) : Host.Outcome State Fault Refusal :=
  .next (s.readBy h m (fun x => x.answerWord m Half.ptmTimeRead))

/-- SET_TIME (R489): the PHC takes `PTM_SET_*` while SERVO_EN is 0. -/
def Half.setTime (x : Half) : Half :=
  if x.rbit Reg.ptmCtrl 0 then x.ptmEvent 7
  else
    let t : PtpTime := ⟨BitVec.ofNat 48 (x.reg64 (Reg.ptmSet 0) (Reg.ptmSet 1)), x.reg (Reg.ptmSet 2), (x.reg (Reg.ptmSet 3)).setWidth 16⟩
    (({ x with ptm := { x.ptm with time := ptpUnits t % phcMod, rem := 0 } } : Half).tpoStep).setRBit Reg.ptmStatus 1 false

/-- SERVO_RESET (R509): STEPPED is cleared, the servos restart in LISTEN. -/
def Half.servoReset (x : Half) : Half :=
  let y := { x with ptm := { x.ptm with holdover := false, hold := false } }
  (((y.setRBit Reg.ptmStatus 1 false).servoRestart 0).servoRestart 1).ptmShow

/-- A write of `PTM_CTRL` (R489, R501, R509). -/
def Half.ptmCtrlWrite (x : Half) (v : Word) : Half :=
  let en := x.rbit Reg.ptmCtrl 0
  let y := x.when (wbit v 6) Half.setTime
  let y := y.setReg Reg.ptmCtrl (v &&& 0xFFFF0031#32)
  let y := if wbit v 0 = en then y
    else ((({ y with ptm := { y.ptm with holdover := false, hold := false } } : Half).servoRestart 0).servoRestart 1).ptmShow
  let y := y.when (wbit v 7) Half.servoReset
  y.ptpSelect (y.pdom y.ptpActive).st

/-- SET_TIME (R489): a write of `PTM_CTRL` with SET_TIME = 1. -/
def execSetTime (h : HalfId) (m : Master) (v : Word) (s : State) : Host.Outcome State Fault Refusal :=
  .next (s.byMaster h m (fun s => s.upd h (fun x => x.ptmCtrlWrite (v ||| 0x40#32))))

/-- SERVO_RESET (R509): a write of `PTM_CTRL` with SERVO_RESET = 1. -/
def execServoReset (h : HalfId) (m : Master) (v : Word) (s : State) : Host.Outcome State Fault Refusal :=
  .next (s.byMaster h m (fun s => s.upd h (fun x => x.ptmCtrlWrite (v ||| 0x80#32))))

/-- A write of `PTM_DOM_CFG_d` (R510): while EN is 1 only EN takes the value written. -/
def Half.domCfgWrite (x : Half) (d : Nat) (v : Word) : Half :=
  let en := x.rbit (Reg.ptmDomCfg d) 31
  let y := if en then x.setRBit (Reg.ptmDomCfg d) 31 (wbit v 31) else x.setReg (Reg.ptmDomCfg d) (v &&& 0xFFFFFFF0#32)
  if wbit v 31 = en then y
  else
    let off := en && y.ptpActive == d
    (({ y with ptm := { y.ptm with holdover := y.ptm.holdover && !off, hold := y.ptm.hold && !off } } : Half).servoRestart d).ptmShow

/-- ANNOUNCE (R491, R496). -/
def execAnnounce (h : HalfId) (msg : PtpMsg) (utcOffset : BitVec 16) (clockClass steps : BitVec 8) (s : State) :
    Host.Outcome State Fault Refusal := .next (s.upd h (fun x => x.announce msg utcOffset clockClass steps))

/-- RX_ADJ in units of 2^-16 ns (R493). -/
def Half.rxAdj (x : Half) : Int := (x.reg Reg.ptmRxAdj).toInt * 2 ^ 8
def Half.txAdj (x : Half) : Int := (x.reg Reg.ptmTxAdj).toInt * 2 ^ 8

/-- SYNC (R497): a one-step Sync is complete, a two-step one awaits its Follow_Up. -/
def execSync (h : HalfId) (msg : PtpMsg) (twoStep : Bool) (t1 : PtpTime) (correction : Int) (t2 : PtpTime) (s : State) :
    Host.Outcome State Fault Refusal :=
  .next (s.upd h (fun x => x.fromMaster msg (fun y d =>
    let at_ := ptpInt t2 + y.rxAdj
    if twoStep then y.setPdom d { y.pdom d with sync := some (msg.sequenceId, at_), logSync := msg.logInterval }
    else y.syncDone d (ptpInt t1 + correction) at_ msg.logInterval)))

/-- FOLLOW_UP (R497): it supplies t1 of the Sync that awaits it. -/
def execFollowUp (h : HalfId) (msg : PtpMsg) (t1 : PtpTime) (correction : Int) (s : State) : Host.Outcome State Fault Refusal :=
  .next (s.upd h (fun x => x.fromMaster msg (fun y d =>
    match (y.pdom d).sync with
    | some (q, t2) => if q = msg.sequenceId then y.syncDone d (ptpInt t1 + correction) t2 (y.pdom d).logSync else y
    | none => y)))

/-- A Delay_Resp that answers the outstanding Delay_Req (R497): the mean path delay; in MEASURE it completes the first
sample. -/
def Half.delayResp (x : Half) (d : Nat) (q : BitVec 16) (t4 corr : Int) : Half :=
  let p := x.pdom d
  match p.req, p.last with
  | some (r, t3), some (t1, t2) =>
    if r = q then
      let v := (t2 - t1) + (t4 - t3) - corr
      let y := (x.showDelay d v).setPdom d { p with req := none, delay := some v, fresh := true }
      if p.st = 2 then y.sample d (t1, t2) v else y.ptpSelect p.st
    else x
  | _, _ => x

/-- DELAY_RESP (R491, R497, R500). -/
def execDelayResp (h : HalfId) (msg : PtpMsg) (logMinDelay : Int) (t4 : PtpTime) (correction : Int) (s : State) :
    Host.Outcome State Fault Refusal :=
  .next (s.upd h (fun x =>
    if -7 ≤ logMinDelay ∧ logMinDelay ≤ 4 then
      x.fromMaster msg (fun y d => y.delayResp d msg.sequenceId (ptpInt t4) correction)
    else x.ptpIgnore msg))

/-- The `n` big-endian bytes of a number. -/
def netBytes (n v : Nat) : Bytes := (leBytes n v).reverse

/-- The template of domain `d`'s Delay_Req, as the time block reads SP6 (R238, R492). -/
def Half.tmplRead (x : Half) (d : Nat) : Bytes × Half :=
  x.devRead .eth (spAddr 6 + x.rfld (Reg.ptmDomTmpl d) 0 20) (x.rfld (Reg.ptmDomCfg d) 8 8)

/-- A Delay_Req (R492): the template, the message of IEEE 1588-2019, and the 2 trailing bytes of IPv6. -/
def Half.delayReqFrame (x : Half) (d : Nat) (seq : BitVec 16) : Bytes :=
  let cfg := Reg.ptmDomCfg d
  (x.tmplRead d).1 ++
  netBytes 1 (x.rfld cfg 24 4 * 16 + 1) ++ netBytes 1 0x12 ++ netBytes 2 44 ++ netBytes 1 (x.rfld cfg 16 8) ++ zeros 1 ++
  zeros 2 ++ zeros 8 ++ zeros 4 ++ netBytes 8 (x.reg64 (Reg.ptmClkid 0) (Reg.ptmClkid 1)) ++ netBytes 2 1 ++
  netBytes 2 seq.toNat ++ netBytes 1 1 ++ netBytes 1 0x7F ++ zeros 10 ++
  (if x.rfld cfg 28 2 = 2 then zeros 2 else [])

/-- DELAY_REQ (R492): while the domain has a master its next Delay_Req is given to the port. -/
def execDelayReq (h : HalfId) (domB : Bool) (s : State) : Host.Outcome State Fault Refusal :=
  .next (s.upd h (fun x =>
    let d := bitNat domB
    let p := x.pdom d
    if p.master.isSome && !x.sys.fallow.isSome then
      let y := (x.tmplRead d).2.setPdom d { p with req := none, seqId := p.seqId + 1#16 }
      { y with sys := { y.sys with frames := y.sys.frames ++ [(x.delayReqFrame d p.seqId, d)] } }
    else x))

/-- MASTER_TIMEOUT (R496): the domain has no master any more and returns to LISTEN. -/
def execMasterTimeout (h : HalfId) (domB : Bool) (s : State) : Host.Outcome State Fault Refusal :=
  .next (s.upd h (fun x =>
    let d := bitNat domB
    let p := x.pdom d
    if p.master.isSome then (x.setPdom d { PtpDom.zero with st := 1, seqId := p.seqId }).ptpSelect (x.pdom x.ptpActive).st else x))

/-- HOLDOVER_EXPIRY (R499): HOLD_S seconds have passed, SYNCED falls. -/
def execHoldoverExpiry (h : HalfId) (s : State) : Host.Outcome State Fault Refusal :=
  .next (s.upd h (fun x => ({ x with ptm := { x.ptm with hold := false } } : Half).ptmShow))

/-- DOMAIN_NOT_VALID (R500, R501): no Delay_Resp within the last 16 intervals. -/
def execDomainNotValid (h : HalfId) (domB : Bool) (s : State) : Host.Outcome State Fault Refusal :=
  .next (s.upd h (fun x =>
    (x.setPdom (bitNat domB) { x.pdom (bitNat domB) with fresh := false }).ptpSelect (x.pdom x.ptpActive).st))

/-- REVERT (R501): an active B yields to A in AUTO, where A has been valid for REVERT_S seconds. -/
def execRevert (h : HalfId) (s : State) : Host.Outcome State Fault Refusal :=
  .next (s.upd h (fun x =>
    if x.rfld Reg.ptmCtrl 24 8 ≠ 0 ∧ x.ptpActive = 1 ∧ x.stepped = true ∧ x.ptpValid 0 = true ∧
        x.rfld Reg.ptmCtrl 4 2 ≠ 1 ∧ x.rfld Reg.ptmCtrl 4 2 ≠ 2 then (x.takeActive 0).ptmShow
    else x))

/-! ## Commands: pulse outputs and queues -/

/-- TPO_ARM (R505): a write of `PTM_TPO_CTRL_k` with ARM = 1. -/
def execTpoArm (h : HalfId) (m : Master) (k : BitVec 2) (v : Word) (s : State) : Host.Outcome State Fault Refusal :=
  .next (s.byMaster h m (fun s => s.upd h (fun x => x.tpoCtrlWrite k.toNat (v ||| 0x80000000#32))))

/-- DISARM (R505). -/
def execDisarm (h : HalfId) (m : Master) (k : BitVec 2) (s : State) : Host.Outcome State Fault Refusal :=
  .next (s.byMaster h m (fun s => s.upd h (fun x => x.tpoDisarm k.toNat)))

/-- TPO_EDGE (R504): not in fallow, where an output holds its level (R505). -/
def execTpoEdge (h : HalfId) (k : BitVec 2) (s : State) : Host.Outcome State Fault Refusal :=
  .next (s.upd h (fun x => if x.sys.fallow.isSome then x else x.tpoEdge k.toNat))

/-- The time of a queue entry, in four registers. -/
def Half.showTime (x : Half) (r : Nat → Nat) (t : PtpTime) : Half :=
  (((x.setReg (r 0) (t.sec.setWidth 32)).setReg (r 1) ((t.sec >>> 32).setWidth 32)).setReg (r 2) t.ns).setReg (r 3)
    (t.frac.setWidth 32)

/-- A read of `PTM_TXTS_ID` takes the oldest entry (R495, R512). -/
def Half.txtsRead (x : Half) : Word × Half :=
  match x.ptm.txts with
  | (typ, seq, t) :: q =>
    let v := BitVec.ofNat 32 (2 ^ 31 + typ % 16 * 2 ^ 16 + seq % 2 ^ 16)
    (v, (({ x with ptm := { x.ptm with txts := q } } : Half).showTime Reg.ptmTxts t).setReg Reg.ptmTxtsId v)
  | [] =>
    let v := setFld (x.reg Reg.ptmTxtsId) 31 1 0
    (v, x.setReg Reg.ptmTxtsId v)

/-- A read of `PTM_TCAP_ID_k` takes the oldest entry (R506, R512). -/
def Half.tcapRead (x : Half) (k : Nat) : Word × Half :=
  match sget x.ptm.tcap k [] with
  | (t, rise) :: q =>
    let v := BitVec.ofNat 32 (2 ^ 31 + bitNat rise * 2 ^ 16 + q.length)
    (v, (({ x with ptm := { x.ptm with tcap := sput x.ptm.tcap k [] q } } : Half).showTime (Reg.ptmTcap k) t).setReg (Reg.ptmTcapId k) v)
  | [] =>
    let v := setFld (setFld (x.reg (Reg.ptmTcapId k)) 31 1 0) 0 5 0
    (v, x.setReg (Reg.ptmTcapId k) v)

/-- PTM_TXTS_ID_READ (R495). -/
def execPtmTxtsIdRead (h : HalfId) (m : Master) (s : State) : Host.Outcome State Fault Refusal :=
  .next (s.readBy h m (fun x => x.answerWord m Half.txtsRead))

/-- PTM_TCAP_ID_READ (R506). -/
def execPtmTcapIdRead (h : HalfId) (m : Master) (k : BitVec 1) (s : State) : Host.Outcome State Fault Refusal :=
  .next (s.readBy h m (fun x => x.answerWord m (fun y => y.tcapRead k.toNat)))

/-- A transmit stamp enters the queue, which holds 16 (R495). -/
def Half.txtsPut (x : Half) (typ seq : Nat) (t : PtpTime) : Half :=
  if 16 ≤ x.ptm.txts.length then x.ptmEvent 6
  else { x with ptm := { x.ptm with txts := x.ptm.txts ++ [(typ, seq, t)] } }

/-! ## Time inside the design (R507, R513) -/

/-- A write of `PTM_DSN` (R507). -/
def State.ptmDsnWrite (s : State) (h : HalfId) (v : Word) : State :=
  let x := s.half h
  if x.inRun then s
  else
    let taken := x.inputsHeld ++ x.dsnBits Reg.pinDsnIn 64
    if wbit v 31 && (!s.dsnOk h v 96 || (dsnKeys v 96).any (fun b => taken.contains b)) then
      s.upd h (fun y => y.setRBit Reg.ptmDsnStat 0 true)
    else s.upd h (fun y => y.setReg Reg.ptmDsn (v &&& 0xBFFF007F#32))

/-- PTM_DSN_WRITE (R507). -/
def execPtmDsnWrite (h : HalfId) (m : Master) (v : Word) (s : State) : Host.Outcome State Fault Refusal :=
  .next (s.byMaster h m (fun s => s.ptmDsnWrite h v))

/-- B0: the time sample for the design. -/
def Half.ptmB0 (x : Half) (dom : Nat) : Half :=
  if x.dsnAt Reg.ptmDsn dom && !x.replaying && x.fabLead then
    let t := x.phc
    let v := t.frac.toNat + t.ns.toNat * 2 ^ 16 + t.sec.toNat * 2 ^ 48
    if x.asr.active then x.journalSample 3 Reg.ptmDsn 96 dom v
    else { x with ptm := { x.ptm with sample := some (BitVec.ofNat 96 v) } }
  else x

/-- B9 with assured operation inactive: the sample enters. -/
def State.ptmB9 (s : State) (h : HalfId) : State :=
  let x := s.half h
  match x.ptm.sample with
  | some v =>
    (s.upd h (fun y => { y with ptm := { y.ptm with sample := none } })).commitIn h
      (inBits (x.rfld Reg.ptmDsn 24 6) (x.rfld Reg.ptmDsn 0 7) 96 v.toNat)
  | none => s

/-! ## Fallow and reset (R488, R503) -/

/-- Fallow entry: the servos stop; the active domain is in HOLDOVER, counted from here, the other in LISTEN. -/
def Half.ptmSleep (x : Half) : Half :=
  let a := x.ptpActive
  let was := (x.pdom a).st
  let y := (x.servoRestart 0).servoRestart 1
  let y := if x.stepped && was != 0 && !x.ptm.holdover then y.enterHoldover was else y
  { y.ptmShow with sys := { y.sys with frames := [] } }

end Sys2Proof.Machine
end

