-- ==== Sys2Proof/Machine/Lanes.lean ====
section
/-!
DEFINITION. Machine/Lanes.lean: lanes, quads and their PLLs (R457 to R472).
-/

namespace Sys2Proof.Machine

/-! ## Lanes -/

/-- Lane `l` belongs to an enabled bundle, under the configuration that the bundle has taken (R138, R165, R460). -/
def Half.laneInBundle (x : Half) (l : Nat) : Bool :=
  (List.range 12).any (fun b => (x.bun b).st != .off && (bundleLanes b (lanes8 b (x.bun b).cfg)).contains l)

/-- Quad `q` belongs to an enabled bundle. -/
def Half.quadInBundle (x : Half) (q : Nat) : Bool := x.laneInBundle (4 * q)

/-- The PCS modes that a rate code allows (R458). -/
def pcsOk (rate pcs : Nat) : Bool :=
  match pcs with
  | 0 => decide (1 ≤ rate) && decide (rate ≤ 9)
  | 1 => (decide (1 ≤ rate) && decide (rate ≤ 5)) || rate == 7
  | 2 => rate == 6 || rate == 8
  | _ => false

/-- The rate code of the PLL that a lane's configuration selects, and whether it is locked. -/
def Half.lanePll (x : Half) (l : Nat) (v : Word) : Nat × Bool :=
  let q := Reg.lnkQuad (l / 4)
  if wbit v 30 then (x.rfld q 4 4, x.rbit q 31) else (x.rfld q 0 4, x.rbit q 30)

/-- The sum of the taps exceeds 63 (R465). -/
def tapsOver (v : Word) : Bool := decide (63 < fld v 16 4 + fld v 10 6 + fld v 5 5)

/-- CFG_ERR. -/
def Half.laneErr (x : Half) (l : Nat) : Half := x.setRBit (Reg.lnkLaneStat l) 4 true

/-- A write of `LNK_LANE_CFG_l` (R460, R465, R468, R469). Taps whose sum is too great keep their values; a lane that is
disabled loses lock without a LOSS. -/
def Half.laneWrite (x : Half) (l : Nat) (v : Word) : Half :=
  let r := Reg.lnkLaneCfg l
  let old := x.reg r
  let taps := 0x000FFFE0#32 &&& 0xFFEFFFE0#32
  let v := v &&& 0xFFEFFFE0#32
  let w := if tapsOver v then (v &&& ~~~taps) ||| (old &&& taps) else v
  if x.laneInBundle l then x.laneErr l
  else if fld v 28 2 = 3 then x.laneErr l
  else if wbit old 31 && ((w ^^^ old) &&& 0x7FFFFFFF#32 != 0#32) then x.laneErr l
  else if wbit v 31 && !(pcsOk (x.lanePll l v).1 (fld v 28 2) && (x.lanePll l v).2) then x.laneErr l
  else
    let y := if tapsOver v then x.laneErr l else x
    let y := y.setReg r w
    let y := if wbit v 31 = wbit old 31 then y
      else (y.setRBit (Reg.lnkLaneStat l) 7 false).setRBit (Reg.lnkLaneStat l) 6 false
    if wbit v 31 && !wbit old 31 then (y.setReg (Reg.lnkLaneErr l) 0#32).setReg (Reg.lnkLaneFec l) 0#32 else y

/-- LANE_ENABLE (R468, R469). -/
def execLaneEnable (h : HalfId) (m : Master) (l : BitVec 6) (v : Word) (s : State) : Host.Outcome State Fault Refusal :=
  .next (s.byMaster h m (fun s => s.upd h (fun x => if l.toNat < 48 then x.laneWrite l.toNat v else x)))

/-- The lane's receiver is at work: by its own EN or for its bundle. -/
def Half.laneOn (x : Half) (l : Nat) : Bool := x.rbit (Reg.lnkLaneCfg l) 31 || x.laneInBundle l

/-- The lane runs in raw mode, where SYNC equals CDR_LOCK (R470). -/
def Half.laneRaw (x : Half) (l : Nat) : Bool := x.laneInBundle l || x.rfld (Reg.lnkLaneCfg l) 28 2 == 0

/-- CDR_LOCK (R468): clock recovery of a lane that is on. -/
def execCdrLock (h : HalfId) (l : BitVec 6) (s : State) : Host.Outcome State Fault Refusal :=
  .next (s.upd h (fun x =>
    if decide (l.toNat < 48) && x.laneOn l.toNat then
      let y := x.setRBit (Reg.lnkLaneStat l.toNat) 7 true
      if y.laneRaw l.toNat then y.setRBit (Reg.lnkLaneStat l.toNat) 6 true else y
    else x))

/-- LANE_SYNC (R470): alignment or block lock, after clock recovery. -/
def execLaneSync (h : HalfId) (l : BitVec 6) (s : State) : Host.Outcome State Fault Refusal :=
  .next (s.upd h (fun x =>
    if decide (l.toNat < 48) && x.rbit (Reg.lnkLaneStat l.toNat) 7 then x.setRBit (Reg.lnkLaneStat l.toNat) 6 true else x))

/-- LOSS and the lane's event bit (R468, R472). -/
def Half.laneLost (x : Half) (l : Nat) : Half :=
  let y := x.setRBit (Reg.lnkLaneStat l) 3 true
  let r := if l < 32 then Reg.lnkLaneEvtLo else Reg.lnkLaneEvtHi
  if y.rbit r (l % 32) then y
  else
    let z := y.setRBit r (l % 32) true
    if z.rbit Reg.lnkIrq 31 then z.msix (z.rfld Reg.lnkIrq 0 8) else z

/-- LOSS (R468): the lane loses clock recovery, or its SYNC alone. -/
def execLaneLoss (h : HalfId) (l : BitVec 6) (cdr : Bool) (s : State) : Host.Outcome State Fault Refusal :=
  .next (s.upd h (fun x =>
    let r := Reg.lnkLaneStat l.toNat
    let both := cdr || x.laneRaw l.toNat
    if 48 ≤ l.toNat then x
    else if both && x.rbit r 7 then ((x.setRBit r 7 false).setRBit r 6 false).laneLost l.toNat
    else if !both && x.rbit r 6 then (x.setRBit r 6 false).laneLost l.toNat
    else x))

/-! ## Quads (R457 to R459, R471) -/

/-- A PLL of quad `q` is in use: by an enabled lane, or PLL B by an enabled bundle (R459). -/
def Half.pllUsed (x : Half) (q : Nat) (b : Bool) : Bool :=
  (List.range 4).any (fun i => x.rbit (Reg.lnkLaneCfg (4 * q + i)) 31 && x.rbit (Reg.lnkLaneCfg (4 * q + i)) 30 == b) ||
  (b && x.quadInBundle q)

/-- One rate field of a quad: a reserved code keeps its value and sets QERR; a change takes the lock away. -/
def Half.pllRate (x : Half) (q : Nat) (b : Bool) (v : Nat) : Half :=
  let r := Reg.lnkQuad q
  let lo := if b then 4 else 0
  if v = x.rfld r lo 4 then x
  else if 10 ≤ v then x.setRBit r 29 true
  else (x.setRFld r lo 4 v).setRBit r (if b then 31 else 30) false

/-- A write of `LNK_QUAD_q` (R458, R459, R471): one that would change a rate in use is refused whole. -/
def Half.quadWrite (x : Half) (q : Nat) (v : Word) : Half :=
  let r := Reg.lnkQuad q
  let y := if wbit v 29 then x.setRBit r 29 false else x
  let moves (b : Bool) : Bool :=
    let n := fld v (if b then 4 else 0) 4
    n != y.rfld r (if b then 4 else 0) 4 && decide (n < 10) && y.pllUsed q b
  if moves false || moves true then y.setRBit r 29 true else (y.pllRate q false (fld v 0 4)).pllRate q true (fld v 4 4)

/-- QUAD_RATE_WRITE (R459). -/
def execQuadRateWrite (h : HalfId) (m : Master) (q : BitVec 4) (v : Word) (s : State) : Host.Outcome State Fault Refusal :=
  .next (s.byMaster h m (fun s => s.upd h (fun x => if q.toNat < 12 then x.quadWrite q.toNat v else x)))

/-- PLL_LOCK (R459): a PLL that is not off locks at its rate. -/
def execPllLock (h : HalfId) (q : BitVec 4) (pllB : Bool) (s : State) : Host.Outcome State Fault Refusal :=
  .next (s.upd h (fun x =>
    let r := Reg.lnkQuad q.toNat
    if q.toNat < 12 ∧ x.rfld r (if pllB then 4 else 0) 4 ≠ 0 then x.setRBit r (if pllB then 31 else 30) true else x))

end Sys2Proof.Machine
end

