-- ==== Sys2Proof/Machine/Endpoint.lean ====
section
/-!
DEFINITION. Machine/Endpoint.lean: the PCIe endpoint's link, configuration and messages (R473 to R482). Host requests are
in Machine/Bus.lean.
-/

namespace Sys2Proof.Machine

/-! ## Link (R479, R482) -/

/-- Held writes are issued in their order, each with the message behind it. -/
def Half.issueHeld : Half → List (Nat × Bytes × Option Nat) → Half
  | x, [] => x
  | x, (a, bs, vec) :: q => (x.hostWrite a bs vec).issueHeld q

/-- The endpoint may issue what it holds: the link is up and it masters the bus. -/
def Half.pciSettle (x : Half) : Half :=
  let r := Reg.pciStatus
  let y := if x.rbit r 0 && x.rbit r 3 && !x.rbit r 1 then { x with pci := { x.pci with down := false } } else x
  if y.pci.down || !y.busMaster then y
  else
    let q := y.pci.held
    ({ y with pci := { y.pci with held := [] } } : Half).issueHeld q

/-- The data link layer leaves DL_Active (R479, R482). -/
def Half.pciDown (x : Half) : Half :=
  let y := if x.rbit Reg.pciStatus 0 then x.setRBit Reg.pciEvt 0 true else x
  let z := ((y.setRBit Reg.pciStatus 0 false).setRFld Reg.pciStatus 28 4 0).setRFld Reg.pciStatus 24 4 0
  { z with pci := { z.pci with down := true } }

/-- Some source of reach Half or wider holds the half. -/
def Half.heldInReset (x : Half) : Bool := decide (x.sys.asserted % 128 ≠ 0)

/-- The endpoint core is held in reset: by a source (R477, R558), before stage 5 of the release, or since no option set passed
(R563, R564). -/
def Half.coreHeld (x : Half) : Bool :=
  x.heldInReset || x.rbit Reg.stwBoot 29 || (x.sys.booting && decide (x.rfld Reg.stwBoot 16 4 < 5)) ||
  natBit x.sys.asserted 8 || natBit x.sys.asserted 9 || natBit x.sys.asserted 10

/-- LINK_DOWN (R479). -/
def execLinkDown (h : HalfId) (s : State) : Host.Outcome State Fault Refusal := .next (s.upd h Half.pciDown)

/-- LINK_UP (R479): not while a reset holds the core; what was held is issued once Bus Master Enable is 1. -/
def execLinkUp (h : HalfId) (speed width : BitVec 4) (s : State) : Host.Outcome State Fault Refusal :=
  .next (s.upd h (fun x =>
    let y := if x.rbit Reg.pciStatus 0 then x else x.setRBit Reg.pciEvt 1 true
    if x.coreHeld then x else
    (((y.setRBit Reg.pciStatus 0 true).setRFld Reg.pciStatus 28 4 speed.toNat).setRFld Reg.pciStatus 24 4 width.toNat).pciSettle))

/-- A pending message is sent once when its masks are clear (R478). -/
def Half.unmask (x : Half) (v : Nat) : Half :=
  if sget x.pci.mxPend v false && !x.pci.funcMask && !wbit (x.mxWord (4 * v + 3)) 0 && x.busMaster && x.rbit Reg.pciStatus 2
      && !x.pci.down then
    ({ x with pci := { x.pci with mxPend := sput x.pci.mxPend v false false } } : Half).msixSend v
  else x

/-- Every pending message whose masks are now clear is sent. -/
def Half.unmaskAll (x : Half) : Half := (x.pci.mxPend.map Prod.fst).foldl Half.unmask x

/-- A double word of configuration space (R473): the bits that the specification gives, as a mask, and their values: the
IDs, class code and revision, Bus Master Enable, a type 0 header of one function, the subsystem IDs, no interrupt pin. -/
def Half.cfgWord (x : Half) (k : Nat) : Nat × Nat :=
  match k with
  | 0 => (0xFFFFFFFF, 0x4D321F5B)
  | 1 => (0x4, 4 * bitNat (x.rbit Reg.pciStatus 3))
  | 2 => (0xFFFFFFFF, 0x12000000 + x.rfld Reg.nocParam0 0 8)
  | 3 => (0x00FF0000, 0)
  | 11 => (0xFFFFFFFF, leNat ((x.sec.opt.drop 4).take 4))
  | 15 => (0x0000FF00, 0)
  | _ => (0, 0)

/-- A configuration read (R473): what the specification does not give is open. -/
def Half.cfgRead (x : Half) (k : Nat) : Half :=
  let w := x.cfgWord k
  let (v, y) := x.fresh 32
  y.emit (.config (v &&& ~~~(BitVec.ofNat 32 w.1) ||| BitVec.ofNat 32 w.2))

/-- CONFIGURATION_REQUEST (R473, R476, R478): a read, or the bits a write leaves in the Command register, the MSI-X capability and
the power state. D3hot counts as a link down (R482). -/
def execConfigurationRequest (h : HalfId) (c : CfgReq) (s : State) : Host.Outcome State Fault Refusal :=
  .next (s.upd h (fun x =>
    if x.coreHeld then x else
    match c.read with
    | some k => x.cfgRead k.toNat
    | none =>
      let y := ((x.setRBit Reg.pciStatus 3 c.busMaster).setRBit Reg.pciStatus 2 c.msixOn).setRBit Reg.pciStatus 1 c.d3hot
      ({ y with pci := { y.pci with funcMask := c.funcMask, down := y.pci.down || c.d3hot } } : Half).pciSettle.unmaskAll))

/-- MSIX_UNMASK (R478). -/
def execMsixUnmask (h : HalfId) (vec : BitVec 8) (s : State) : Host.Outcome State Fault Refusal :=
  .next (s.upd h (fun x => x.unmask vec.toNat))

/-- A write of `PCI_CTRL` by the steward (R476). -/
def Half.hostEnable (x : Half) (b : Bool) : Half := (x.setRBit Reg.pciCtrl 0 b).pciSettle

/-- The endpoint core is reset (R477): configuration, the MSI-X table, pending bits, AER; `link` says that the link falls
too. -/
def Half.coreReset (x : Half) (link : Bool) : Half :=
  let y := if link then x.pciDown else x
  let z := ((y.setRBit Reg.pciStatus 3 false).setRBit Reg.pciStatus 2 false).setRBit Reg.pciStatus 1 false
  { z with pci := { z.pci with mxTab := [], mxPend := [], funcMask := false, aerUr := false, aerCa := false } }

end Sys2Proof.Machine
end

