-- ==== Sys2Proof/Machine/Ether.lean ====
section
/-!
DEFINITION. Machine/Ether.lean: the management Ethernet port: classification of frames, the rings in SP6, transmit stamps
(R483 to R486, R493 to R495).
-/

namespace Sys2Proof.Machine

/-! ## What a frame holds -/

/-- A byte of a frame, and a big-endian number in it. -/
def fb (f : Bytes) (i : Nat) : Nat := (f.getD i 0#8).toNat
def fbe (f : Bytes) (i n : Nat) : Nat := leNat ((f.drop i).take n).reverse

/-- Where a frame's EtherType stands: behind one VLAN tag, if it has one (R484). -/
def etherAt (f : Bytes) : Nat := if fbe f 12 2 = 0x8100 then 16 else 12

/-- Where a frame's UDP header stands, and whether it is IPv6. -/
def udpAt (f : Bytes) : Option (Nat × Bool) :=
  let e := etherAt f
  let ip := e + 2
  if fbe f e 2 = 0x0800 then
    if fb f (ip + 9) = 17 ∧ fbe f (ip + 6) 2 % 8192 = 0 then some (ip + fb f ip % 16 * 4, false) else none
  else if fbe f e 2 = 0x86DD then
    if fb f (ip + 6) = 17 then some (ip + 40, true) else none
  else none

/-- Where the PTP message of a PTP frame stands (R484). -/
def ptpAt (f : Bytes) : Option Nat :=
  let e := etherAt f
  if fbe f e 2 = 0x88F7 then some (e + 2)
  else
    match udpAt f with
    | some (u, _) => if fbe f (u + 2) 2 = 319 ∨ fbe f (u + 2) 2 = 320 then some (u + 8) else none
    | none => none

/-- A PAUSE frame. -/
def isPause (f : Bytes) : Bool := fbe f 12 2 == 0x8808 && fbe f 14 2 == 1

/-- The port's filter admits a frame that is not PTP (R484). -/
def Half.admits (x : Half) (f : Bytes) : Bool :=
  let d := fbe f 0 6
  let addr := (x.reg Reg.lnkMeAddrLo).toNat + (x.reg Reg.lnkMeAddrHi).toNat % 65536 * 2 ^ 32
  d == addr || x.rbit Reg.lnkMeCfg 27 || (d == 0xFFFFFFFFFFFF && x.rbit Reg.lnkMeCfg 26) ||
  (d != 0xFFFFFFFFFFFF && fb f 0 % 2 == 1 && x.rbit Reg.lnkMeCfg 25)

/-! ## Receive (R484, R485) -/

/-- Bytes at an offset of a ring in SP6. -/
def Half.ringWrite (x : Half) (base off : Nat) (bs : Bytes) : Half :=
  x.devWrite .eth (spAddr 6 + base + off) bs

/-- A receive record: header and frame, padded to 8 bytes. -/
def rxRecord (f : Bytes) (ptp : Bool) (t : PtpTime) : Bytes :=
  leBytes 2 f.length ++ leBytes 2 (bitNat ptp) ++ zeros 4 ++ leBytes 6 t.sec.toNat ++ leBytes 2 t.frac.toNat ++
  leBytes 4 t.ns.toNat ++ zeros 4 ++ f ++ zeros ((8 - f.length % 8) % 8)

/-- A PAD record: LEN 0, FLAGS bit 15. -/
def padRecord : Bytes := leBytes 2 0 ++ leBytes 2 0x8000 ++ zeros 4

/-- Write a record to the receive ring; one that would reach RX_RPTR is discarded. -/
def Half.rxPut (x : Half) (bs : Bytes) : Half :=
  let base := x.rfld Reg.lnkMeRxBase 0 20
  let size := x.rfld Reg.lnkMeRxSize 0 20
  let w := x.rfld Reg.lnkMeRxWptr 0 20
  let r := x.rfld Reg.lnkMeRxRptr 0 20
  let skip := if size < w + bs.length then size - w else 0
  let used := if r ≤ w then w - r else w + size - r
  if size ≤ used + skip + bs.length then x.countFld Reg.lnkMeCnt0 16 16 1
  else
    let y := if 0 < skip then x.ringWrite base w padRecord else x
    let at_ := if 0 < skip then 0 else w
    let y := y.ringWrite base at_ bs
    (y.setRFld Reg.lnkMeRxWptr 0 20 ((at_ + bs.length) % size)).irq Reg.lnkMeIrq

/-- A stamp of the cage moved by an adjustment in 2^-16 ns (R493). -/
def adjusted (t : PtpTime) (adj : Int) : PtpTime :=
  ptpOf ((((ptpUnits t : Int) + adj * 2 ^ 16) % (phcMod : Int)).toNat)

/-- The time block's view of a PTP frame (R491): its commands SYNC, FOLLOW_UP, DELAY_RESP and ANNOUNCE bring the messages of those
types; a message of another type is ignored and counted. -/
def Half.ptpHand (x : Half) (f : Bytes) : Half :=
  match ptpAt f with
  | some p => if [0, 8, 9, 11].contains (fb f p % 16) then x else x.ptpCount (fb f (p + 4)) (fb f p / 16)
  | none => x

/-- A received frame (R484). A PTP frame is handed to the time block. -/
def Half.ethReceive (x : Half) (f : EthFrame) : Half :=
  if !x.rbit Reg.lnkMeCfg 31 || x.sys.fallow.isSome then x
  else if !f.fcsOk || decide (f.bytes.length < 60) || decide (9212 < f.bytes.length) then x.countFld Reg.lnkMeCnt0 0 16 1
  else if isPause f.bytes then x.countFld Reg.lnkMeCnt1 16 16 1
  else
    let ptp := (ptpAt f.bytes).isSome
    if ptp then (x.ptpHand f.bytes).when (x.rbit Reg.lnkMeCfg 28) (fun y => y.rxPut (rxRecord f.bytes true (adjusted f.stamp x.rxAdj)))
    else if x.admits f.bytes then x.rxPut (rxRecord f.bytes false (adjusted f.stamp x.rxAdj))
    else x.countFld Reg.lnkMeCnt1 0 16 1

/-- ETH_FRAME_RECEIVE (R484). -/
def execEthFrameReceive (h : HalfId) (f : EthFrame) (s : State) : Host.Outcome State Fault Refusal :=
  .next (s.upd h (fun x => x.ethReceive f))

/-! ## Transmit (R485, R492 to R495) -/

/-- Bytes put over a frame's own from `i` on. -/
def overlay (f : Bytes) (i : Nat) (bs : Bytes) : Bytes := f.take i ++ bs ++ f.drop (i + bs.length)

/-- The sum of 16-bit words, as UDP's checksum takes it. -/
def sum16 : Bytes → Nat
  | a :: b :: l => a.toNat * 256 + b.toNat + sum16 l
  | [a] => a.toNat * 256
  | [] => 0

/-- Fold a sum to 16 bits. -/
def fold16 (n : Nat) : Nat :=
  let m := n % 65536 + n / 65536
  let k := m % 65536 + m / 65536
  k % 65536 + k / 65536

/-- The 2 trailing bytes of a UDP/IPv6 message set so that its checksum holds (R492, R494). -/
def fixUdp6 (f : Bytes) : Bytes :=
  match udpAt f with
  | some (u, true) =>
    let len := fbe f (u + 4) 2
    let f0 := overlay f (u + len - 2) (zeros 2)
    let s := sum16 ((f0.drop (u - 32)).take 32) + len + 17 + sum16 ((f0.drop u).take len)
    overlay f (u + len - 2) (netBytes 2 (65535 - fold16 s))
  | _ => f

/-- A one-step stamp (R494): SEC and NS into originTimestamp, FRAC into correctionField. -/
def oneStep (f : Bytes) (p : Nat) (t : PtpTime) : Bytes :=
  let g := overlay f (p + 34) (netBytes 6 t.sec.toNat ++ netBytes 4 t.ns.toNat)
  fixUdp6 (overlay g (p + 8) (netBytes 8 ((fbe g (p + 8) 8 + t.frac.toNat) % 2 ^ 64)))

/-- A frame leaves, padded to 60 bytes (R485). -/
def Half.sendFrame (x : Half) (f : Bytes) : Half := x.emit (.frame (f ++ zeros (60 - f.length)))

/-- The transmit stamp of the frame that now starts (R493). -/
def Half.txStamp (x : Half) : PtpTime := adjusted x.phc x.txAdj

/-- A Delay_Req of the time block leaves: its stamp is t3 (R492, R494, R497). -/
def Half.sendDelayReq (x : Half) (f : Bytes) (d : Nat) : Half :=
  let p := f.length - 44 - (if x.rfld (Reg.ptmDomCfg d) 28 2 = 2 then 2 else 0)
  let t := x.txStamp
  let y := x.setPdom d { x.pdom d with req := some (BitVec.ofNat 16 (fbe f (p + 30) 2), ptpInt t) }
  y.sendFrame (oneStep f p t)

/-- The event message that a ONE_STEP frame must hold (R494). -/
def eventMsg (f : Bytes) : Option Nat :=
  match ptpAt f with
  | some p => if fb f p % 16 < 4 then some p else none
  | none => none

/-- A frame of the transmit ring leaves (R485, R494, R495). Of a frame that holds no PTP message the report's messageType
and sequenceId are values the specification does not state. -/
def Half.sendRing (x : Half) (f : Bytes) (flags : Nat) : Half :=
  let t := x.txStamp
  let y :=
    if natBit flags 0 then
      match eventMsg f with
      | some p => x.sendFrame (oneStep f p t)
      | none => (x.sendFrame f).ptmEvent 8
    else x.sendFrame f
  if natBit flags 1 then
    match ptpAt f with
    | some p => y.txtsPut (fb f p % 16) (fbe f (p + 30) 2) t
    | none =>
      let (v, z) := y.fresh 20
      z.txtsPut (v.toNat / 65536) (v.toNat % 65536) t
  else y

/-- `n` bytes at an offset of the transmit ring, as the port reads SP6 (R238). -/
def Half.txRead (x : Half) (off n : Nat) : Bytes × Half := x.devRead .eth (spAddr 6 + x.rfld Reg.lnkMeTxBase 0 20 + off) n

/-- The transmit record at `at_`. -/
def Half.txRecord (x : Half) (at_ : Nat) : Half :=
  let (head, x) := x.txRead at_ 8
  let len := leNat (head.take 2)
  let y := if len ≤ 9212 then
      let (f, x) := x.txRead (at_ + 8) len
      x.sendRing f (leNat ((head.drop 2).take 2))
    else x
  y.setRFld Reg.lnkMeTxRptr 0 20 ((at_ + 8 + (len + 7) / 8 * 8) % max 1 (x.rfld Reg.lnkMeTxSize 0 20))

/-- The port sends: a frame of the time block before a waiting ring frame (R485). A PAD record leads to BASE. -/
def Half.ethTransmit (x : Half) : Half :=
  if !x.rbit Reg.lnkMeCfg 31 || x.sys.fallow.isSome then x
  else
    match x.sys.frames with
    | (f, d) :: q => ({ x with sys := { x.sys with frames := q } } : Half).sendDelayReq f d
    | [] =>
      let r := x.rfld Reg.lnkMeTxRptr 0 20
      let w := x.rfld Reg.lnkMeTxWptr 0 20
      if r = w then x
      else if natBit (leNat (((x.txRead r 8).1.drop 2).take 2)) 15 then
        let y := x.setRFld Reg.lnkMeTxRptr 0 20 0
        if w = 0 then y else y.txRecord 0
      else x.txRecord r

/-- ETH_FRAME_TRANSMIT (R485). -/
def execEthFrameTransmit (h : HalfId) (s : State) : Host.Outcome State Fault Refusal := .next (s.upd h Half.ethTransmit)

/-! ## Registers (R486) -/

/-- A write of `LNK_ME_CFG` (R486). -/
def Half.meCfgWrite (x : Half) (v : Word) : Half :=
  let old := x.reg Reg.lnkMeCfg
  let w := v &&& 0xFE000000#32
  if wbit old 31 && ((w ^^^ old) &&& 0x7FFFFFFF#32 != 0#32) then x
  else
    let y := x.setReg Reg.lnkMeCfg w
    if wbit w 31 && !wbit old 31 then
      [Reg.lnkMeRxWptr, Reg.lnkMeRxRptr, Reg.lnkMeTxWptr, Reg.lnkMeTxRptr, Reg.lnkMeCnt0, Reg.lnkMeCnt1].foldl
        (fun y r => y.setReg r 0#32) y
    else y

/-- LNK_ME_CFG_WRITE (R486). -/
def execLnkMeCfgWrite (h : HalfId) (m : Master) (v : Word) (s : State) : Host.Outcome State Fault Refusal :=
  .next (s.byMaster h m (fun s => s.upd h (fun x => x.meCfgWrite v)))

/-- A write of a BASE or SIZE register is ignored while EN is 1; one of a pointer that is no multiple of 8 or lies at or
beyond SIZE is ignored (R486). -/
def Half.meRingWrite (x : Half) (off : Nat) (v : Word) : Half :=
  let n := fld v 0 20
  if off = Reg.lnkMeRxRptr then
    if n % 8 = 0 ∧ n < x.rfld Reg.lnkMeRxSize 0 20 then x.setReg off (BitVec.ofNat 32 n) else x
  else if off = Reg.lnkMeTxWptr then
    if n % 8 = 0 ∧ n < x.rfld Reg.lnkMeTxSize 0 20 then x.setReg off (BitVec.ofNat 32 n) else x
  else if x.rbit Reg.lnkMeCfg 31 then x
  else x.setReg off (BitVec.ofNat 32 n)

/-- LINK_CHG (R486): LINK is block lock without HI_BER. -/
def execLinkChg (h : HalfId) (blockLock hiBer : Bool) (s : State) : Host.Outcome State Fault Refusal :=
  .next (s.upd h (fun x =>
    let y := x.setRBit Reg.lnkMeStat 1 hiBer
    let link := blockLock && !hiBer
    if y.rbit Reg.lnkMeStat 0 = link then y
    else ((y.setRBit Reg.lnkMeStat 0 link).setRBit Reg.lnkMeStat 2 true).irq Reg.lnkMeIrq))

end Sys2Proof.Machine
end

