-- ==== Sys2Proof/Machine/Noc.lean ====
section
/-!
DEFINITION. Machine/Noc.lean: network errors, probes and the commands of the trace funnel (R521, R526 to R545).
-/

namespace Sys2Proof.Machine

/-! ## Errors (R521, R543) -/

/-- NOC_TIMEOUT (R521): a request without a response, or another error of the networks. -/
def execNocTimeout (h : HalfId) (c : NocCase) (s : State) : Host.Outcome State Fault Refusal :=
  .next (s.upd h (fun x =>
    match c with
    | .noResponse => x.setRBit Reg.nocStatus 2 true
    | .headerUncorr => (x.setRBit Reg.nocStatus 3 true).halfFault
    | .routeError => x.setRBit Reg.nocStatus 1 true
    | .corrected => (x.setRBit Reg.nocStatus 0 true).countFld Reg.nocCorrCount 0 32 1))

/-- A write of `NOC_STATUS` (R543): clearing CORR clears its count. -/
def Half.nocStatusWrite (x : Half) (v : Word) : Half :=
  let y := x.setReg Reg.nocStatus (x.reg Reg.nocStatus &&& ~~~(v &&& 0xF#32))
  if wbit v 0 then y.setReg Reg.nocCorrCount 0#32 else y

/-! ## Probes (R526 to R528, R544) -/

/-- The tile to whose router a station is attached (R515). -/
def stationTile (c : Nat) : Option Nat :=
  if c < 0x40 then some c
  else if c < 0x48 then some (c - 0x40)
  else if c < 0x50 then some (56 + (c - 0x48))
  else match c with
  | 0x50 => some 27 | 0x51 => some 35 | 0x52 => some 28 | 0x53 => some 36 | 0x54 => some 20
  | _ => none

/-- The hops of one dimension from coordinate `a` to `b`: how many, and whether in the positive direction; at a distance of 4
that direction is taken (R517). -/
def ringHops (a b : Nat) : Nat × Bool :=
  let n := (b + 8 - a) % 8
  if n ≤ 4 then (n, true) else (8 - n, false)

/-- The output links, as (tile, direction), on the way from tile `a` to tile `b`: along X, then along Y (R517). -/
def routeOf (a b : Nat) : List (Nat × Nat) :=
  let (nx, east) := ringHops (a % 8) (b % 8)
  let (ny, south) := ringHops (a / 8) (b / 8)
  let at_ (c : Nat) (up : Bool) (i : Nat) : Nat := if up then (c + i) % 8 else (c + 8 - i) % 8
  (List.range nx).map (fun i => (a / 8 * 8 + at_ (a % 8) east i, if east then 0 else 1)) ++
  (List.range ny).map (fun i => (at_ (a / 8) south i * 8 + b % 8, if south then 2 else 3))

/-- A packet of a torus network passes a point (R516, R517, R526): it lies on the route from its source station to its
destination; a request goes to the station of its address and an answer comes from there. -/
def probePasses (p : ProbePkt) : Bool :=
  let far := if p.net = 1#3 ∨ p.typ = 0xD#4 then p.src.toNat else p.dst.toNat
  (match stationOf p.addr.toNat with
   | some c => c == far
   | none => true) &&
  match stationTile p.src.toNat, stationTile p.dst.toNat with
  | some a, some b =>
    if p.pkind = 0#2 then (routeOf a b).contains (p.point.toNat % 64, p.point.toNat / 64) else p.point == p.dst
  | _, _ => false

/-- The packet passes the point that the probe watches (R526). -/
def Half.probePoint (x : Half) (k : Nat) (p : ProbePkt) : Bool :=
  let c := x.reg (Reg.nocPrbCfg k)
  fld c 26 3 == p.net.toNat && fld c 24 2 == p.pkind.toNat &&
  (match fld c 24 2 with
   | 0 => decide (fld c 26 3 ≤ 2) && fld c 16 8 == p.point.toNat && probePasses p
   | 1 => decide (fld c 26 3 ≤ 2) && fld c 16 8 == p.point.toNat && probePasses p
   | 2 => fld c 26 3 == 3 || fld c 26 3 == 4
   | _ => false)

/-- The packet matches (R527). -/
def Half.probeHits (x : Half) (k : Nat) (p : ProbePkt) : Bool :=
  let c := x.reg (Reg.nocPrbCfg k)
  let i := x.reg (Reg.nocPrbId k)
  let addr := BitVec.ofNat 40 (x.reg64 (Reg.nocPrbAddrLo k) (Reg.nocPrbAddrHi k))
  let am := BitVec.ofNat 40 (x.reg64 (Reg.nocPrbAmaskLo k) (Reg.nocPrbAmaskHi k))
  let sm := BitVec.ofNat 8 (fld i 24 8)
  let dm := BitVec.ofNat 8 (fld i 8 8)
  wbit c 31 && wbit c p.typ.toNat && (p.src &&& sm == BitVec.ofNat 8 (fld i 16 8) &&& sm) &&
  (p.dst &&& dm == BitVec.ofNat 8 (fld i 0 8) &&& dm) && (p.addr &&& am == addr &&& am)

/-- A match (R528): counters, the PRB_PKT packet, the trace event. -/
def Half.probeMatch (x : Half) (k : Nat) (p : ProbePkt) : Half :=
  let y := x.count64 (Reg.nocPrbPktsLo k) (Reg.nocPrbPktsHi k) 1
  let y := y.count64 (Reg.nocPrbFlitsLo k) (Reg.nocPrbFlitsHi k) p.flits
  let y := y.count64 (Reg.nocPrbWaitLo k) (Reg.nocPrbWaitHi k) p.wait
  let w0 := p.flits % 8 * 2 ^ 22 + p.dst.toNat * 2 ^ 14 + p.src.toNat * 2 ^ 6 + p.typ.toNat * 4 + p.net.toNat % 4
  let y := if y.rbit (Reg.nocPrbCfg k) 30 then
      y.trace (0x10 + k) 0 [BitVec.ofNat 32 w0, p.addr.setWidth 32, BitVec.ofNat 32 (p.mst.toNat * 256 + p.addr.toNat / 2 ^ 32)]
    else y
  y.traceEvt (0x200 + k)

/-- PROBE_MATCH (R527, R528): a packet that does not match changes nothing. -/
def execProbeMatch (h : HalfId) (k : BitVec 4) (p : ProbePkt) (s : State) : Host.Outcome State Fault Refusal :=
  .next (s.upd h (fun x => if x.probePoint k.toNat p && x.probeHits k.toNat p then x.probeMatch k.toNat p else x))

/-- CLEAR (R528). -/
def Half.probeZero (x : Half) (k : Nat) : Half :=
  ((x.setReg64 (Reg.nocPrbPktsLo k) (Reg.nocPrbPktsHi k) 0).setReg64 (Reg.nocPrbFlitsLo k) (Reg.nocPrbFlitsHi k) 0).setReg64
    (Reg.nocPrbWaitLo k) (Reg.nocPrbWaitHi k) 0

/-- A write of `NOC_PRB_CFG_k` (R544): while EN is 1 only EN and CLEAR count. -/
def Half.prbCfgWrite (x : Half) (k : Nat) (v : Word) : Half :=
  let r := Reg.nocPrbCfg k
  let y := if x.rbit r 31 then x.setRBit r 31 (wbit v 31) else x.setReg r (v &&& 0xDFFFFFFF#32)
  if wbit v 29 then y.probeZero k else y

/-- CLEAR (R528): a write of `NOC_PRB_CFG_k` with CLEAR = 1. -/
def execProbeClear (h : HalfId) (m : Master) (k : BitVec 4) (v : Word) (s : State) : Host.Outcome State Fault Refusal :=
  .next (s.byMaster h m (fun s => s.upd h (fun x => x.prbCfgWrite k.toNat (v ||| 0x20000000#32))))

/-! ## The funnel (R535 to R540, R545) -/

/-- The HBM ring lies in the HBM and meets no design-owned region, ASR area or armed region (R535). -/
def Half.trcRingOk (x : Half) : Bool :=
  let b := x.rfld Reg.trcHbmBase 0 16 * 2 ^ 20
  let n := x.rfld Reg.trcHbmSize 0 16 * 2 ^ 20
  decide (0 < n) && rangesOk [(b, b + n)] (x.portRanges ++ x.asrRanges ++ x.capRanges 4 ++ x.plyRanges 4)

/-- Tracing is enabled: the machine is in S0, the ring is empty. -/
def Half.traceStart (x : Half) : Half :=
  let y := ((x.setReg64 Reg.trcWptrLo Reg.trcWptrHi 0).setReg64 Reg.trcBlocksLo Reg.trcBlocksHi 0).setReg Reg.trcDrop 0#32
  let y := { y with trc := { Trc.zero with tclk := y.trc.tclk } }
  let y := (y.setRFld Reg.trcStatus 30 2 0).setRBit Reg.trcStatus 29 false
  let y := if y.rfld Reg.trcCtrl 28 2 = 3 then y.portStart else y
  y.traceState 0

/-- A write of `TRC_CTRL` (R535, R539, R540, R545). -/
def Half.trcCtrlWrite (x : Half) (v : Word) : Half :=
  if x.rbit Reg.trcCtrl 31 then
    if wbit v 31 then x
    else
      let y := if x.traceOn then ((x.eachSource (fun z i => z.traceMark i [traceHead i 0xB 0 0])).setRBit Reg.trcStatus 29 false).traceDrain
        else x
      y.setRBit Reg.trcCtrl 31 false
  else
    let y := x.setReg Reg.trcCtrl (v &&& 0xFC00FF01#32)
    if wbit v 31 then
      if fld v 28 2 = 2 ∧ x.trcRingOk = false then x.setRBit Reg.trcStatus 2 true else y.traceStart
    else y

/-- TRACE_ENABLE (R540): a write of `TRC_CTRL`. -/
def execTraceEnable (h : HalfId) (m : Master) (v : Word) (s : State) : Host.Outcome State Fault Refusal :=
  .next (s.byMaster h m (fun s => s.upd h (fun x => x.trcCtrlWrite v)))

/-- RESTART (R539). -/
def Half.trcRestart (x : Half) : Half := x.traceState 0

/-- A write of `TRC_EM_CTRL` (R538, R539): GO, then RESTART. -/
def Half.trcEmWrite (x : Half) (v : Word) : Half :=
  (x.when (wbit v 1) (fun y => y.traceEvt 0x210)).when (wbit v 0) Half.trcRestart

/-- TRC_GO (R538). -/
def execTrcGo (h : HalfId) (m : Master) (s : State) : Host.Outcome State Fault Refusal :=
  .next (s.byMaster h m (fun s => s.upd h (fun x => x.traceEvt 0x210)))

/-- RESTART (R539). -/
def execTrcRestart (h : HalfId) (m : Master) (s : State) : Host.Outcome State Fault Refusal :=
  .next (s.byMaster h m (fun s => s.upd h Half.trcRestart))

/-- TRACE_PERIODIC_SYNC (R532): nothing where SYNC_MS is 0. -/
def execTracePeriodicSync (h : HalfId) (s : State) : Host.Outcome State Fault Refusal :=
  .next (s.upd h (fun x =>
    if x.traceOn && x.rfld Reg.trcCtrl 8 8 != 0 then x.eachSource (fun z i => z.traceMark i (z.syncPacket i 1)) else x))

/-- A word of an STW_LOG sequence, which takes up to seven (R545). -/
def Half.stwLog (x : Half) (v : Word) : Half :=
  if x.trc.stw.length < 7 then { x with trc := { x.trc with stw := x.trc.stw ++ [v] } } else x

/-- The end of the sequence sends the STW_LOG packet. -/
def Half.stwEnd (x : Half) : Half :=
  let ws := x.trc.stw
  let y := { x with trc := { x.trc with stw := [] } }
  if ws.isEmpty then y else y.trace 0x20 0 ws

/-- TRC_STW_LOG_WRITE (R545): the steward's alone. -/
def execTrcStwLogWrite (h : HalfId) (m : Master) (v : Word) (s : State) : Host.Outcome State Fault Refusal :=
  .next (s.byMaster h m (fun s => s.upd h (fun x => if m = .stw then x.stwLog v else x.writeErr m 2#2)))

/-- TRC_STW_END_WRITE (R545). -/
def execTrcStwEndWrite (h : HalfId) (m : Master) (s : State) : Host.Outcome State Fault Refusal :=
  .next (s.byMaster h m (fun s => s.upd h (fun x => if m = .stw then x.stwEnd else x.writeErr m 2#2)))

/-- A write of `TRC_SRC_EN` (R529, R545): ignored while EN is 1; the STW bit while debug is closed. -/
def Half.srcEnWrite (x : Half) (v : Word) : Half :=
  if x.rbit Reg.trcCtrl 31 then x
  else
    let w := v &&& 0xFFFF000F#32
    let open_ := x.rbit Reg.secStatus 25 && x.rbit Reg.secStatus 23
    x.setReg Reg.trcSrcEn (if open_ then w else (w &&& ~~~8#32) ||| (x.reg Reg.trcSrcEn &&& 8#32))

/-- Debug has closed (R529): the steward's source, if it is ON, sends STOP and nothing further. -/
def Half.stwSourceStop (x : Half) : Half :=
  if x.traceOn && x.srcEnabled 0x20 then x.traceMark 0x20 [traceHead 0x20 0xB 0 0] else x

/-- Fallow entry (R541): each enabled source that is ON delivers its FIFO and SLEEP, the block is completed. -/
def Half.traceSleep (x : Half) : Half :=
  (x.when x.traceOn (fun y => (y.eachSource (fun z i => z.traceMark i [traceHead i 0xD 0 0])).traceDrain)).portRest

/-- Fallow exit (R537, R538, R541): the port aligns, SYNC with REASON 2 before any other packet, event 0x212. -/
def Half.traceWake (x : Half) : Half :=
  let y := if x.rbit Reg.trcCtrl 31 && x.rfld Reg.trcCtrl 28 2 == 3 then x.portStart else x
  let y := if y.traceOn then y.eachSource (fun z i => z.traceMark i (z.syncPacket i 2)) else y
  y.traceEvt 0x212

end Sys2Proof.Machine
end

