-- ==== Sys2Proof/Machine/Reset.lean ====
section
/-!
DEFINITION. Machine/Reset.lean: reset sources, their reaches and their release (R558 to R561, R570 to R573).
-/

namespace Sys2Proof.Machine

/-! ## What a reset leaves (R559, R570) -/

/-- Where the boot flash stands in the memory of a half: at addresses of the model's own (log entry 3). -/
def flashBase : Nat := 0x10200000000

/-- A register that a reset of reach Half leaves. Of the always-on domain: `RST_CAUSE` (R558), the feeds and their voltages,
which the power monitor shows (R546), and `SEC_TAMPER_STAT` and `SEC_LOCKOUT` (R600). `LNK_TM_MODID` is one register of the
module, which a reset of one half alone keeps (R163, log entry 89). -/
def alwaysOn (off : Nat) : Bool :=
  off == Reg.rstCause || off == Reg.lnkTmModid || off == Reg.pwrStatus || off == Reg.pwrFeed || off == Reg.secTamperStat || off == Reg.secLockout

/-- The half in the state a reset of reach Half leaves it in. What is not volatile stays: OTP, the boot flash, the
embedded flash of the fabric, what the stewards keep of stop records; so do the levels outside it and what it sent. -/
def Half.resetAll (x : Half) : Half :=
  let z := Half.zero x.self
  let y : Half :=
    { z with
      regs := keepKeys alwaysOn x.regs
      mem := keepKeys (fun a => decide (flashBase ≤ a)) x.mem
      fab := { z.fab with flash := x.fab.flash, erased := x.fab.erased, flBad := x.fab.flBad }
      pins := { z.pins with pad := x.pins.pad }
      sec := { z.sec with otp := x.sec.otp, waitT := x.sec.waitT }
      sys := { z.sys with asserted := x.sys.asserted, fail := x.sys.fail, por := x.sys.por, stops := x.sys.stops
                          stopSlot := x.sys.stopSlot, newStop := x.sys.newStop, failAt := x.sys.failAt }
      out := x.out
      free := x.free }
  -- the feeds as the monitor sees them; PWR_FAIL, THROTTLE and ALERT begin at 0
  y.setReg Reg.pwrStatus (y.reg Reg.pwrStatus &&& 0x1E#32)

/-- The half after a POR (R558): the always-on domain is reset too. -/
def Half.resetPor (x : Half) : Half :=
  let y := { x with regs := [] }.resetAll
  { y with sys := { y.sys with asserted := 0, fail := none, por := true }, sec := { y.sec with waitT := 0 } }

/-! ## Sources (R558, R560) -/

/-- A source is asserted: its bit in `RST_CAUSE`, and in the mask of those asserted. -/
def Half.assertSrc (x : Half) (i : Nat) : Half :=
  let y := if natBit x.sys.asserted i then x else { x with sys := { x.sys with asserted := x.sys.asserted + 2 ^ i } }
  y.setRBit Reg.rstCause i true

/-- A source of reach Half or Module is asserted. -/
def Half.assertHalf (x : Half) (i : Nat) : Half := (x.assertSrc i).resetAll

/-- A source of reach Module is asserted: what is of the module is reset too. -/
def Half.assertModule (x : Half) (i : Nat) : Half := (x.assertHalf i).setReg Reg.lnkTmModid 0#32

/-- A source is released (R560). -/
def Half.releaseSrc (x : Half) (i : Nat) : Half :=
  if natBit x.sys.asserted i then
    let y := { x with sys := { x.sys with asserted := x.sys.asserted - 2 ^ i } }
    if i = 11 then y.setRFld Reg.rstSwrst 0 22 0 else y
  else x

/-- RESET_RELEASE (R560): the block is released once no source that reaches it is left; a half then goes through the
stages of R564. A power failure releases as R548 says. -/
def execResetRelease (h : HalfId) (src : BitVec 4) (s : State) : Host.Outcome State Fault Refusal :=
  .next (s.upd h (fun x => if src = 1#4 then x else x.releaseSrc src.toNat))

/-- POR (R558, R571): everything is reset, the always-on domain included; RST_CAUSE shows POR alone. -/
def execPor (s : State) : Host.Outcome State Fault Refusal := .next (s.both Half.resetPor)

/-- MOD_RST (R558). -/
def execModRst (s : State) : Host.Outcome State Fault Refusal := .next (s.both (fun x => x.assertModule 2))

/-- HALF_SW (R572): the HALF bit of `RST_SWRST` is the steward's. -/
def execHalfSw (h : HalfId) (m : Master) (s : State) : Host.Outcome State Fault Refusal :=
  .next (s.byMaster h m (fun s => s.upd h (fun x => if m = .stw then x.assertHalf 3 else x.writeErr m 2#2)))

/-- WATCHDOG (R573): it expires only while it runs. -/
def execWatchdog (h : HalfId) (s : State) : Host.Outcome State Fault Refusal :=
  .next (s.upd h (fun x => if x.rbit Reg.rstWdog 31 then x.assertHalf 4 else x))

/-- A write of `RST_WDOG` by the steward (R573): EN, once 1, stays. -/
def Half.wdogWrite (x : Half) (v : Word) : Half :=
  x.setReg Reg.rstWdog ((v &&& 0x8000FFFF#32) ||| (x.reg Reg.rstWdog &&& 0x80000000#32))

/-- KICK (R573): the count starts again; the next expiry is a WATCHDOG command. -/
def execKick (h : HalfId) (m : Master) (v : Word) (s : State) : Host.Outcome State Fault Refusal :=
  .next (s.byMaster h m (fun s => s.upd h (fun x => if m = .stw then x.wdogWrite v else x.writeErr m 2#2)))

/-- PERST (R477, R482, R558). -/
def execPerst (h : HalfId) (s : State) : Host.Outcome State Fault Refusal :=
  .next (s.upd h (fun x => ((x.assertSrc 8).coreReset true).setRBit Reg.pciEvt 2 true))

/-- HOT_RESET (R477, R558). -/
def execHotReset (h : HalfId) (s : State) : Host.Outcome State Fault Refusal :=
  .next (s.upd h (fun x => (x.assertSrc 9).coreReset true))

/-- FLR (R477, R482, R558): the link stays up. -/
def execFlr (h : HalfId) (s : State) : Host.Outcome State Fault Refusal :=
  .next (s.upd h (fun x => ((x.assertSrc 10).coreReset false).setRBit Reg.pciEvt 3 true))

/-- TRST (R558): the TAP controllers of both halves. -/
def execTrst (s : State) : Host.Outcome State Fault Refusal :=
  .next (s.both (fun x =>
    let y := x.assertSrc 12
    ({ y with sys := { y.sys with stwHalt := false } } : Half).tapLeave))

/-! ## Block resets (R561, R572) -/

/-- The registers of block `i` take their reset values, but for those of `keep`. -/
def Half.dropBlock (x : Half) (i : Nat) (keep : Nat → Bool) : Half :=
  { x with regs := keepKeys (fun o => o / 0x100000 != i || keep o) x.regs }

/-- Nothing of a block is kept. -/
def dropAll (_ : Nat) : Bool := false

/-- The registers of a channel's declaration, which an AFB reset leaves (R561). -/
def isChanDecl (o : Nat) : Bool :=
  (List.range 32).any (fun k => o == Reg.afbChCfg k || o == Reg.afbChBits k)

/-- A block of index `i` in the order of R43 is reset. No store and no memory changes. -/
def Half.blockReset (x : Half) (i : Nat) : Half :=
  match i with
  | 5 => ({ x.dropBlock 5 dropAll with seq := Seq.zero, seqCopy := Seq.zero } : Half).seqForgets
  | 6 => { x.dropBlock 6 dropAll with run := { x.run with pend := [], ext := [], vt := 0#64 } }
  | 7 => { x.dropBlock 7 dropAll with txe := Txe.zero }
  | 8 => { x.dropBlock 8 dropAll with eng := { x.eng with trg := [], xtLatch := 0#8 } }
  | 9 => { x.dropBlock 9 dropAll with eng := { x.eng with cap := [] } }
  | 10 => { x.dropBlock 10 dropAll with asr := Asr.zero }
  | 12 => { x.dropBlock 12 dropAll with mt := MemTest.zero }
  | 13 =>
    let y := x.dropBlock 13 isChanDecl
    { y with fab := { Fab.zero with
      flash := y.fab.flash, erased := y.fab.erased, flBad := y.fab.flBad
      chan := y.fab.chan.map (fun (e : Nat × Chan) => (e.1, { Chan.zero with off := e.2.off })) } }
  | 14 => { x.dropBlock 14 dropAll with pins := { Pins.zero with pad := x.pins.pad } }
  | 15 =>
    let y := (List.range 12).foldl (fun y b => y.linkLost b) x
    { y.dropBlock 15 (fun o => o == Reg.lnkTmModid) with bundle := [], sys := { y.sys with frames := [] } }
  | 17 => { x.dropBlock 17 dropAll with ptm := Ptm.zero }
  | 19 => { x.dropBlock 19 dropAll with trc := { Trc.zero with tclk := x.trc.tclk } }
  | 21 => { x.dropBlock 21 dropAll with eng := { x.eng with ply := [] } }
  | _ => x.dropBlock i dropAll

/-- Bits of `RST_SWRST` that read 0 and ignore writes (R561). -/
def swrstDead (i : Nat) : Bool := decide (i < 5) || i == 16 || i == 18 || decide (22 ≤ i)

/-- Blocks that may be reset at any time. -/
def swrstFree (i : Nat) : Bool := i == 13 || i == 15 || i == 19

/-- One block bit of a write of `RST_SWRST`. -/
def Half.swrstBit (x : Half) (i : Nat) : Half :=
  if swrstDead i then x
  else if swrstFree i then ((x.blockReset i).assertSrc 11).setRBit Reg.rstSwrst i true
  else if x.inRun then x.setRBit Reg.rstStatus 0 true
  else (((x.blockReset i).unload).assertSrc 11).setRBit Reg.rstSwrst i true

/-- The block bits of a write of `RST_SWRST`. -/
def Half.swrstWrite (x : Half) (v : Word) : Half :=
  (List.range 22).foldl (fun y i => if wbit v i then y.swrstBit i else y) x

/-- A master that may write the block bits (R572). -/
def swrstMaster (m : Master) : Bool := m == .stw || m == .seq || m == .host

/-- A write of `RST_SWRST` (R561, R572). -/
def Half.swrstBy (x : Half) (m : Master) (v : Word) : Half :=
  if !swrstMaster m || (wbit v 31 && m != .stw) then x.writeErr m 2#2
  else if wbit v 31 then x.assertHalf 3
  else x.swrstWrite v

/-- BLOCK_SW (R561). -/
def execBlockSw (h : HalfId) (m : Master) (v : Word) (s : State) : Host.Outcome State Fault Refusal :=
  .next (s.byMaster h m (fun s => s.upd h (fun x => x.swrstBy m v)))

end Sys2Proof.Machine
end

