-- ==== Sys2Proof/Machine/Sec.lean ====
section
/-!
DEFINITION. Machine/Sec.lean: the SEC block: life-cycle state, debug, measurement at boot, tamper, and the SPDM responder
(R577 to R601).
-/

namespace Sys2Proof.Machine

/-! ## The boot flash (R549, R578, R582, R595) -/

/-- Bytes of the boot flash. -/
def Half.flashBytes (x : Half) (off n : Nat) : Bytes := rdBytes x.mem (flashBase + off) n
def Half.flashWrite (x : Half) (off : Nat) (bs : Bytes) : Half := { x with mem := wrBytes x.mem (flashBase + off) bs }

/-- A little-endian number of a byte string. -/
def leAt (bs : Bytes) (i n : Nat) : Nat := leNat ((bs.drop i).take n)

/-- Firmware slots A and B, the certificate chain; the places of the stop records and of FAILS, which the specification
leaves to the steward, are the model's own. -/
def fwBase (b : Bool) : Nat := if b then 0x800000 else 0
def chainBase : Nat := 0x1000000
def stopBase : Nat := 0x1100000
def failsAt : Nat := 0x1140000

/-- The firmware image of a slot, where it is valid (R578). -/
def Half.fwImage (x : Half) (b : Bool) : Option Bytes :=
  let h := x.flashBytes (fwBase b) 32
  let len := leAt h 16 4
  if leAt h 0 4 = 0x464E524C ∧ leAt h 4 2 = 1 ∧ 32 + len ≤ 0x800000 then
    let body := x.flashBytes (fwBase b + 32) len
    if (crc32c (h.take 28 ++ zeros 4 ++ body)).toNat = leAt h 28 4 then some (h ++ body) else none
  else none

/-- The slot that the ROM chooses (R578). -/
def Half.chooseFw (x : Half) : Option (Bool × Bytes) :=
  match x.fwImage false, x.fwImage true with
  | some a, some b => if leAt a 8 4 < leAt b 8 4 then some (true, b) else some (false, a)
  | some a, none => some (false, a)
  | none, some b => some (true, b)
  | none, none => none

/-! ## Life cycle and identity (R581, R582, R588, R589) -/

def Half.lcs (x : Half) : Nat := x.sec.otp.lcs

/-- The current owner's record. -/
def Half.ownerRec (x : Half) : Option Bytes :=
  match x.sec.otp.owner with
  | some i => x.sec.otp.owners[i]?
  | none => none

/-- OWNER_SLOT: the current or the last owner slot. -/
def Half.ownerSlot (x : Half) : Nat := x.sec.otp.owners.length - 1

/-- The option set's SERIAL (R562). -/
def Half.serial (x : Half) : Bytes := (x.sec.opt.drop 8).take 8

/-- The chain as stored, where its digest matches (R582). -/
def Half.chain (x : Half) : Option Bytes :=
  match x.sec.otp.chain with
  | some (d, n) =>
    let bs := x.flashBytes chainBase n
    if sha384 bs = d then some bs else none
  | none => none

/-- The identity signs in this state (R588). -/
def Half.signs (x : Half) : Bool := x.sec.otp.key.isSome && (x.lcs == 1 || x.lcs == 2)

/-- HOST_ENABLE, LOAD_IMAGE and runs are permitted (R588). -/
def Half.permitted (x : Half) : Bool := x.lcs == 1 || x.lcs == 2 || x.lcs == 3

/-- Show LCS, OWNER_SLOT, NO_PWD and IDENTITY_OK (R599). -/
def Half.secShow (x : Half) : Half :=
  let np := match x.ownerRec with
    | some r => natBit (leAt r 144 4) 0
    | none => false
  let r := Reg.secStatus
  (((x.setRFld r 28 4 x.lcs).setRFld r 26 2 x.ownerSlot).setRBit r 24 np).setRBit r 19 (x.sec.otp.key.isSome && x.chain.isSome)

/-! ## Debug (R592) -/

def Half.debugOpen (x : Half) : Bool := x.rbit Reg.secStatus 25
def Half.debugScope (x : Half) : Nat := x.rfld Reg.secStatus 20 4

/-- A life-cycle or debug record extends MS6. -/
def Half.secRecord (x : Half) (event path : Nat) : Half :=
  x.extendMs 6 (sha384 ([event, x.lcs, x.debugScope, x.ownerSlot, path].map (BitVec.ofNat 8) ++ zeros 11))

/-- Debug as a life-cycle state has it: open with all scopes, or closed (R588). -/
def Half.debugByState (x : Half) : Half :=
  let o := x.lcs == 0 || x.lcs == 1 || x.lcs == 3
  (x.setRBit Reg.secStatus 25 o).setRFld Reg.secStatus 20 4 (if o then 15 else 0)

/-- Debug opens with a scope, which replaces the previous one; PATH 1 signature, 2 password. -/
def Half.openDebug (x : Half) (scope path : Nat) : Half :=
  ((x.setRBit Reg.secStatus 25 true).setRFld Reg.secStatus 20 4 scope).secRecord 2 path

/-- Debug closes, if it is open; the steward's trace ends (R529). -/
def Half.closeDebug (x : Half) : Half :=
  if x.debugOpen then (((x.stwSourceStop).setRBit Reg.secStatus 25 false).setRFld Reg.secStatus 20 4 0).secRecord 3 0 else x

/-! ## Lockout (R595) -/

def Half.fails (x : Half) : Nat := x.rfld Reg.secLockout 0 8

/-- The wait after failure `n`. -/
def lockWait (n : Nat) : Nat := if n ≤ 2 then 0 else min 86400 (10 * 2 ^ (n - 3))

/-- FAILS as it is held in the boot flash and shown; with the wait that follows, or none. -/
def Half.setFails (x : Half) (n wait : Nat) : Half :=
  let y := x.flashWrite failsAt [BitVec.ofNat 8 n]
  let y := { y with sec := { y.sec with waitT := 0 } }
  ((y.setRFld Reg.secLockout 0 8 n).setRBit Reg.secLockout 14 (decide (32 ≤ n))).setRFld Reg.secLockout 15 17 wait

/-- A failed verification is counted. -/
def Half.countFail (x : Half) : Half :=
  let n := min 255 (x.fails + 1)
  x.setFails n (lockWait n)

/-- `n` tenths of a nanosecond of a lockout wait pass on the always-on oscillator: WAIT_S counts the seconds left (R595, R600). -/
def Half.waitPass (x : Half) (n : Nat) : Half :=
  let w := x.rfld Reg.secLockout 15 17
  if w = 0 then x
  else
    let t := x.sec.waitT + n
    let y := { x with sec := { x.sec with waitT := t % 10000000000 } }
    if t < 10000000000 then y else y.setRFld Reg.secLockout 15 17 (w - 1)

/-- An attempt during a wait is LOCKED. -/
def Half.locked (x : Half) : Bool := decide (0 < x.rfld Reg.secLockout 15 17)

/-- LOCKOUT_EXPIRY (R595): the wait has ended. -/
def execLockoutExpiry (h : HalfId) (s : State) : Host.Outcome State Fault Refusal :=
  .next (s.upd h (fun x => x.setRFld Reg.secLockout 15 17 0))

/-- A nonce is voided (R590). -/
def Half.voidNonce (x : Half) : Half := { x with sec := { x.sec with nonce := none } }

/-- NONCE_EXPIRY (R590). -/
def execNonceExpiry (h : HalfId) (s : State) : Host.Outcome State Fault Refusal := .next (s.upd h Half.voidNonce)

/-! ## Measurement at boot (R578) -/

/-- The ROM at stage 4: what it measures, whether LOCK is set, and the firmware it starts; none where no slot is valid. The
firmware's own extension of MS2 (R579) is a digest the specification does not state. -/
def Half.romBoot (x : Half) : Option Half :=
  match x.chooseFw with
  | none => none
  | some (b, img) =>
    let y := (x.extendMs 0 (sha384 img)).extendMs 1 (sha384 x.sec.opt)
    let y := (y.extendMs 3 (sha384 (x.ownerRec.getD (zeros 160)))).secShow.debugByState
    let y := y.secRecord 1 0
    let y := y.setRBit Reg.secCtrl 0 (x.lcs == 2 || x.lcs == 4)
    let (d, y) := y.fresh 384
    let y := (y.extendMs 2 (netBytes 48 d.toNat)).setRBit Reg.secStatus 17 b
    some { y with sec := { y.sec with fwSvn := leAt img 12 4, fwVer := leAt img 8 4 } }

/-- No slot is valid (R578). -/
def Half.romStuck (x : Half) : Half :=
  ((x.extendMs 0 (sha384 [])).secShow.debugByState).setRBit Reg.secStatus 16 true

/-! ## Tamper (R580, R596 to R600) -/

/-- The bit of a sensor. -/
def sensorBit : Sensor → Nat
  | .volt => 0
  | .clk => 1
  | .temp => 2
  | .lid => 3

/-- A wipe of secure memory (R596). -/
def Half.wipe (x : Half) : Half := x.setRBit Reg.secStatus 18 true

/-- The tamper response (R580, R596, R598). -/
def Half.tamper (x : Half) : Half :=
  let y := ((x.assertSrc 7).voidNonce.closeDebug.hostEnable false).zeroMs.wipe
  { y with sec := { y.sec with tampered := true } }

/-- Sensors that trip, those that are enabled. -/
def Half.trip (x : Half) (l : List Sensor) : Half :=
  let on := l.filter (fun i => x.rbit Reg.secTamperCfg (sensorBit i))
  if on.isEmpty then x else (on.foldl (fun y i => y.setRBit Reg.secTamperStat (sensorBit i) true) x).tamper

/-- TAMPER_TRIP (R597, R598): the lid switch reaches both halves. -/
def execTamperTrip (h : HalfId) (sensors : List Sensor) (s : State) : Host.Outcome State Fault Refusal :=
  let t := s.upd h (fun x => x.trip sensors)
  .next (if sensors.contains .lid then t.upd (otherHalf h) (fun x => x.trip [.lid]) else t)

/-- LOCK (R599): W1S by the steward. -/
def execSecLock (h : HalfId) (m : Master) (v : Word) (s : State) : Host.Outcome State Fault Refusal :=
  .next (s.byMaster h m (fun s => (s.upd h (fun x =>
    if m = .stw then (if wbit v 0 then x.setRBit Reg.secCtrl 0 true else x) else x.writeErr m 2#2))))

/-! ## SPDM (R583, R584) -/

/-- Sign with the identity key (R581): r, then s; the signature depends on a random number. -/
def Half.sign (x : Half) : Bytes × Half :=
  let (v, y) := x.fresh 768
  (netBytes 96 v.toNat, y)

/-- A fresh random number of `n` bytes. -/
def Half.random (x : Half) (n : Nat) : Bytes × Half :=
  let (v, y) := x.fresh (8 * n)
  (netBytes n v.toNat, y)

/-- Bytes from numbers. -/
def bytesOf (l : List Nat) : Bytes := l.map (BitVec.ofNat 8)

/-- An SPDM ERROR response: 0x01 InvalidRequest, 0x05 Unspecified. -/
def spdmError (code : Nat) : Bytes := bytesOf [0x12, 0x7F, code, 0]

/-- The length of the DER value that begins a byte string. -/
def derLen (bs : Bytes) : Nat :=
  let l := (bs.getD 1 0#8).toNat
  if l < 128 then 2 + l else 2 + (l - 128) + leNat ((bs.drop 2).take (l - 128)).reverse

/-- The chain in SPDM's form: length, digest of the root certificate, certificates. -/
def spdmChain (chain : Bytes) : Bytes :=
  leBytes 2 (chain.length + 52) ++ zeros 2 ++ sha384 (chain.take (derLen chain)) ++ chain

/-- Answer a request. -/
def Half.spdm (x : Half) (bs : Bytes) : Half := x.emit (.spdm bs)

/-- GET_VERSION (R583): version 1.2 alone. -/
def execGetVersion (h : HalfId) (s : State) : Host.Outcome State Fault Refusal :=
  .next (s.upd h (fun x => x.spdm (bytesOf [0x10, 0x04, 0, 0, 0, 1, 0x00, 0x12])))

/-- GET_CAPABILITIES (R583): CERT_CAP, CHAL_CAP, MEAS_CAP = 2, CTExponent 21, sizes 4,096. -/
def execGetCapabilities (h : HalfId) (s : State) : Host.Outcome State Fault Refusal :=
  .next (s.upd h (fun x =>
    x.spdm (bytesOf [0x12, 0x61, 0, 0, 0, 21, 0, 0] ++ leBytes 4 0x16 ++ leBytes 4 4096 ++ leBytes 4 4096)))

/-- NEGOTIATE_ALGORITHMS (R583): ECDSA P-384, SHA-384, DMTF measurements. -/
def execNegotiateAlgorithms (h : HalfId) (s : State) : Host.Outcome State Fault Refusal :=
  .next (s.upd h (fun x =>
    x.spdm (bytesOf [0x12, 0x63, 0, 0] ++ leBytes 2 36 ++ bytesOf [1, 0] ++ leBytes 4 4 ++ leBytes 4 0x80 ++ leBytes 4 2 ++
      zeros 12 ++ zeros 4)))

/-- GET_DIGESTS (R583): slot 0, where a chain is served. -/
def execGetDigests (h : HalfId) (s : State) : Host.Outcome State Fault Refusal :=
  .next (s.upd h (fun x =>
    match x.chain with
    | some c => x.spdm (bytesOf [0x12, 0x01, 0, 1] ++ sha384 (spdmChain c))
    | none => x.spdm (bytesOf [0x12, 0x01, 0, 0])))

/-- GET_CERTIFICATE (R582): a portion of the chain, or ERROR Unspecified where its digest does not match. -/
def execGetCertificate (h : HalfId) (slot : BitVec 8) (off len : BitVec 16) (s : State) : Host.Outcome State Fault Refusal :=
  .next (s.upd h (fun x =>
    if slot ≠ 0#8 then x.spdm (spdmError 1)
    else
      match x.chain with
      | some c =>
        let c := spdmChain c
        let p := (c.drop off.toNat).take len.toNat
        x.spdm (bytesOf [0x12, 0x02, 0, 0] ++ leBytes 2 p.length ++ leBytes 2 (c.length - off.toNat - p.length) ++ p)
      | none => x.spdm (spdmError 5)))

/-- CHALLENGE (R583): answered with a signature, where the identity signs. -/
def execChallenge (h : HalfId) (slot : BitVec 8) (_nonce : Bytes) (s : State) : Host.Outcome State Fault Refusal :=
  .next (s.upd h (fun x =>
    if slot ≠ 0#8 then x.spdm (spdmError 1)
    else
      match x.chain with
      | some c =>
        if x.signs then
          let (n, y) := x.random 32
          let (g, y) := y.sign
          y.spdm (bytesOf [0x12, 0x03, 0, 1] ++ sha384 (spdmChain c) ++ n ++ zeros 2 ++ g)
        else x.spdm (spdmError 5)
      | none => x.spdm (spdmError 5)))

/-- The extension counts of MS0 to MS7. -/
def Half.msCounts (x : Half) : Bytes := (List.range 8).flatMap (fun k => leBytes 4 (x.reg (Reg.secMsCnt k)).toNat)

/-- Block 9: the device state. -/
def Half.deviceState (x : Half) : Bytes :=
  bytesOf [x.lcs, bitNat x.debugOpen, x.debugScope, x.ownerSlot] ++ leBytes 4 x.fails ++ x.msCounts

/-- A measurement block (R584). -/
def Half.measBlock (x : Half) (i : Nat) : Bytes :=
  let v := if i = 9 then x.deviceState else x.msBytes (i - 1)
  let typ := if i = 9 then 0x84 else min i 4
  bytesOf [i, 1] ++ leBytes 2 (v.length + 3) ++ bytesOf [typ] ++ leBytes 2 v.length ++ v

/-- GET_MEASUREMENTS (R584): index 0 the number of blocks, 0xFF all of them; signed when the request carries a nonce. -/
def execGetMeasurements (h : HalfId) (index : BitVec 8) (nonce : Bytes) (s : State) : Host.Outcome State Fault Refusal :=
  .next (s.upd h (fun x =>
    let i := index.toNat
    if 9 < i ∧ i ≠ 255 then x.spdm (spdmError 1)
    else if !nonce.isEmpty && !x.signs then x.spdm (spdmError 5)
    else
      let blocks := if i = 0 then [] else if i = 255 then (List.range 9).map (fun k => x.measBlock (k + 1)) else [x.measBlock i]
      let rec_ := blocks.flatten
      let (n, y) := x.random 32
      let (g, y) := if nonce.isEmpty then ([], y) else y.sign
      y.spdm (bytesOf [0x12, 0x60, if i = 0 then 9 else 0, 0, blocks.length] ++ leBytes 3 rec_.length ++ rec_ ++ n ++ zeros 2 ++ g)))

end Sys2Proof.Machine
end

