-- ==== Sys2Proof/Machine/Startup.lean ====
section
/-!
DEFINITION. Machine/Startup.lean: supply, thermal control, references, fallow and the release sequence (R546 to R575).
-/

namespace Sys2Proof.Machine

/-! ## Supply and thermal control (R546 to R551) -/

/-- A bit of `PWR_EVT` or `CLK_EVT` sets; the PWR vector is raised when it was 0 (R574, R575). -/
def Half.pwrEvent (x : Half) (reg i : Nat) : Half :=
  if x.rbit reg i then x else (x.setRBit reg i true).irq Reg.pwrIrq

/-- ALERT: the half asserts `ALERT_N` (R551). -/
def Half.alert (x : Half) : Half :=
  x.setRBit Reg.pwrStatus 0 (x.run.throttled || !x.rbit Reg.pwrStatus 1 || !x.rbit Reg.pwrStatus 2 || x.rbit Reg.stwBoot 29)

/-- A feed of a half changes its state (R546). -/
def Half.feed (x : Half) (b : Nat) (e : FeedEvent) : Half :=
  let good := x.rbit Reg.pwrStatus (1 + b)
  match e with
  | .good =>
    let y := x.setRBit Reg.pwrStatus (3 + b) false
    if good then y else (y.setRBit Reg.pwrStatus (1 + b) true).pwrEvent Reg.pwrEvt 2
  | .lost => if good then (x.setRBit Reg.pwrStatus (1 + b) false).pwrEvent Reg.pwrEvt b else x
  | .overvoltage =>
    let y := if x.rbit Reg.pwrStatus (3 + b) then x else (x.setRBit Reg.pwrStatus (3 + b) true).pwrEvent Reg.pwrEvt 5
    if good then (y.setRBit Reg.pwrStatus (1 + b) false).pwrEvent Reg.pwrEvt b else y

/-- FEED_STATE_CHANGE (R546, R575). -/
def execFeedStateChange (h : HalfId) (feedB : Bool) (e : FeedEvent) (tenMv : BitVec 16) (s : State) :
    Host.Outcome State Fault Refusal :=
  .next (s.upd h (fun x => ((x.setRFld Reg.pwrFeed (if feedB then 16 else 0) 16 tenMv.toNat).feed (bitNat feedB) e).alert))

/-- The reach and the state a thermal sample of one half asks for (R551). -/
def Half.askThrottle (x : Half) (on : Bool) : Half :=
  if x.run.throttled = on then { x with run := { x.run with thrReq := none } }
  else { x with run := { x.run with thrReq := some on } }

/-- THERMAL_SAMPLE (R551): throttle at 100.0 °C, restore at 95.0 °C, trip at 108.0 °C in two samples. -/
def execThermalSample (h : HalfId) (tj : BitVec 16) (powerW : BitVec 16) (s : State) : Host.Outcome State Fault Refusal :=
  let t := tj.toInt
  let s := s.upd h (fun x => x.setReg Reg.pwrTemp (BitVec.ofNat 32 (powerW.toNat * 65536 + tj.toNat)))
  let held := (s.half h).rbit Reg.pwrStatus 5
  let s := if 800 ≤ t ∧ held = false then
      (s.upd h (fun x => x.setRBit Reg.pwrStatus 5 true)).grp h (fun x => x.askThrottle true)
    else if t ≤ 760 ∧ held = true then
      let s := s.upd h (fun x => x.setRBit Reg.pwrStatus 5 false)
      if s.anyGrp h (fun x => x.rbit Reg.pwrStatus 5) then s else s.grp h (fun x => x.askThrottle false)
    else s
  .next (s.upd h (fun x =>
    let y := { x with sys := { x.sys with hot := if 864 ≤ t then x.sys.hot + 1 else 0 } }
    if 2 ≤ y.sys.hot then y.assertHalf 5 else y))

/-! ## Power failure (R548, R549) -/

/-- POWER_FAIL (R548): step 1 and 2, once both feeds are LOST. -/
def execPowerFail (s : State) : Host.Outcome State Fault Refusal :=
  let lost (x : Half) : Bool := !x.rbit Reg.pwrStatus 1 && !x.rbit Reg.pwrStatus 2
  .next (if lost s.h0 && lost s.h1 then
      (s.both (fun x =>
        if x.sys.fail.isNone then
          let y := x.setRBit Reg.pwrStatus 6 true
          let y := { y with sys := { y.sys with fail := some .stopping, failAt := y.phc }, pci := { y.pci with down := true } }
          y.request 8 none false
        else x)).settle
    else s)

/-- Seconds, fraction and nanoseconds of a time, 12 bytes. -/
def ptpBytes (t : PtpTime) : Bytes := leBytes 6 t.sec.toNat ++ leBytes 2 t.frac.toNat ++ leBytes 4 t.ns.toNat

/-- The stop record (R549). -/
def Half.stopRecord (x : Half) : Bytes :=
  let asr := x.asr.active
  let hzn (lo hi : Nat) : Nat := if asr then x.reg64 lo hi else 0
  let qs := (List.range 64).filter (fun q => x.rbit (Reg.txeCqCfg q) 31)
  let ps := (List.range 256).filter (fun p => x.rbit (Reg.txeDpCfg p) 31)
  let jseq := match (x.asr.journal.filter (fun r => r.conf)).getLast? with
    | some r => r.jseq
    | none => x.asr.jseq
  let body :=
    bytesOf [0x4C, 0x52, 0x4E, 0x53, 1, 0, halfNum x.self, bitNat asr + 2 * bitNat (x.rbit Reg.ptmStatus 2)] ++
    leBytes 4 (x.sys.stops + 1) ++ leBytes 2 qs.length ++ leBytes 2 ps.length ++ leBytes 8 x.run.cyc.toNat ++
    ptpBytes x.sys.failAt ++ bytesOf [x.run.state.code, x.asr.st.code] ++ zeros 2 ++ leBytes 8 x.txe.aseq ++
    leBytes 8 jseq ++ leBytes 4 (x.reg Reg.asrGenNew).toNat ++ zeros 4 ++ leBytes 8 (hzn Reg.asrFabHznLo Reg.asrFabHznHi) ++
    qs.flatMap (fun q => leBytes 1 q ++ zeros 1 ++ leBytes 2 (x.rfld (Reg.txeSqStat q) 0 16) ++ leBytes 6 (sget x.asr.cseq q 0) ++
      leBytes 6 (hzn (Reg.asrCqHznLo q) (Reg.asrCqHznHi q))) ++
    ps.flatMap (fun p => leBytes 1 p ++ zeros 1 ++ leBytes 6 (x.reg64 (Reg.txeDpOseqLo p) (Reg.txeDpOseqHi p)) ++
      leBytes 6 (hzn (Reg.asrDpHznLo p) (Reg.asrDpHznHi p)) ++ zeros 2)
  body ++ leBytes 4 (crc32c body).toNat

/-- The steward writes its record into the next slot. -/
def Half.writeStop (x : Half) : Half :=
  let y := x.flashWrite (stopBase + x.sys.stopSlot * 8192) x.stopRecord
  { y with sys := { y.sys with stops := y.sys.stops + 1, stopSlot := (y.sys.stopSlot + 1) % 32, newStop := true } }

/-- STOP_RECORD_DONE (R548 steps 3 and 4). -/
def execStopRecordDone (s : State) : Host.Outcome State Fault Refusal :=
  .next (s.both (fun x =>
    if x.sys.fail = some .stopping then
      let y := x.writeStop.assertModule 1
      { y with sys := { y.sys with fail := some .held } }
    else x))

/-- POWER_FAIL_RELEASE (R548): a feed has been GOOD for 10 ms; both halves go through the Module sequence. -/
def execPowerFailRelease (s : State) : Host.Outcome State Fault Refusal :=
  let good (x : Half) : Bool := x.rbit Reg.pwrStatus 1 || x.rbit Reg.pwrStatus 2
  .next (if good s.h0 || good s.h1 then
      s.both (fun x =>
        if x.sys.fail = some .held then
          let y := x.releaseSrc 1
          { y with sys := { y.sys with fail := none } }
        else x)
    else s)

/-! ## References (R552 to R554, R574) -/

/-- PRIMARY, where 3 acts as 0, and SECONDARY, where 3 is none. -/
def Half.clkPrimary (x : Half) : Nat := if x.rfld Reg.clkRefCfg 0 2 = 3 then 0 else x.rfld Reg.clkRefCfg 0 2
def Half.clkSecondary (x : Half) : Option Nat := if x.rfld Reg.clkRefCfg 2 2 = 3 then none else some (x.rfld Reg.clkRefCfg 2 2)
def Half.srcValid (x : Half) (i : Nat) : Bool := x.rbit Reg.clkStatus (3 + i)
def Half.inUse (x : Half) : Nat := x.rfld Reg.clkStatus 8 2

/-- The root PLL enters holdover: it is no longer locked to its reference. -/
def Half.clkHoldover (x : Half) : Half :=
  if x.rbit Reg.clkStatus 11 then x
  else ((x.setRBit Reg.clkStatus 11 true).setRBit Reg.clkStatus 10 false).pwrEvent Reg.clkEvt 1

/-- The root PLL has arrived at source `i`; away from `EXT_REF` a linked run is asked to halt (R553). -/
def Half.clkArrive (x : Half) (i : Nat) : Half :=
  let away := x.inUse == 2 && i != 2 && x.run.linked
  let y := ((x.setRFld Reg.clkStatus 8 2 i).setRBit Reg.clkStatus 10 true).setRBit Reg.clkStatus 11 false
  { y with run := { y.run with linkHalt := y.run.linkHalt || away }, sys := { y.sys with pllMove := false } }

/-- SOURCE_INVALID (R553). -/
def execSourceInvalid (h : HalfId) (src : BitVec 2) (s : State) : Host.Outcome State Fault Refusal :=
  .next (if src = 3#2 ∨ (s.half h).srcValid src.toNat = false then s
    else
      let s := s.upd h (fun x => (x.setRBit Reg.clkStatus (3 + src.toNat) false).pwrEvent Reg.clkEvt 0)
      if (s.half h).inUse = src.toNat then s.upd h Half.clkHoldover else s)

/-- SOURCE_VALID (R553): the source in use ends the holdover; the PLL follows it again. -/
def execSourceValid (h : HalfId) (src : BitVec 2) (s : State) : Host.Outcome State Fault Refusal :=
  .next (s.upd h (fun x =>
    if src = 3#2 then x
    else
      let y := x.setRBit Reg.clkStatus (3 + src.toNat) true
      if y.rbit Reg.clkStatus 11 && !y.sys.pllMove && y.inUse == src.toNat then y.clkArrive src.toNat else y))

/-- One half moves to the SECONDARY `i` of the lead half; where that source is not valid it stays in holdover (R553). -/
def Half.failover (x : Half) (i : Nat) : Half :=
  if x.srcValid i then (x.clkArrive i).pwrEvent Reg.clkEvt 2 else x.clkHoldover

/-- ROOT_PLL_LOCK (R553, R554): the move to a new PRIMARY, or in holdover the failover to SECONDARY, is complete. -/
def execRootPllLock (h : HalfId) (s : State) : Host.Outcome State Fault Refusal :=
  let x := s.half h
  .next (if x.sys.pllMove then s.upd h (fun x => x.clkArrive x.clkPrimary)
    else if x.rbit Reg.clkStatus 11 then
      let l := s.half (s.leadOf h)
      match l.rbit Reg.clkRefCfg 4, l.clkSecondary with
      | true, some i => if x.srcValid i then s.grp h (fun y => y.failover i) else s
      | _, _ => s
    else s)

/-- HOLDOVER_TIMEOUT (R553 step 3). -/
def execHoldoverTimeout (h : HalfId) (s : State) : Host.Outcome State Fault Refusal :=
  .next (s.upd h (fun x => if x.rbit Reg.clkStatus 11 then x.assertHalf 6 else x))

/-- A write of `CLK_REF_CFG` (R554): the root PLL moves to a new PRIMARY. -/
def Half.clkCfgWrite (x : Half) (v : Word) : Half :=
  if x.inRun || (List.range 12).any (fun b => x.rbit (Reg.lnkTmBcfg b) 0) then x.setRBit Reg.clkStatus 0 true
  else
    let y := x.setReg Reg.clkRefCfg (v &&& 0x3F#32)
    if y.clkPrimary = y.inUse then y
    else ({ y with sys := { y.sys with pllMove := true } } : Half).clkHoldover

/-- CLK_REF_CFG_WRITE (R554). -/
def execClkRefCfgWrite (h : HalfId) (m : Master) (v : Word) (s : State) : Host.Outcome State Fault Refusal :=
  .next (s.byMaster h m (fun s => s.upd h (fun x => x.clkCfgWrite v)))

/-! ## Fallow (R555 to R557) -/

/-- The conditions of R555 on one half. -/
def Half.mayFallow (x : Half) : Bool :=
  x.run.state != .running && x.run.state != .recovering && !x.marchBusy && x.sys.load.isNone && x.fab.load.isNone &&
  x.asr.phase.isNone && x.asr.cmd.isNone && x.sys.fallow.isNone && !(x.run.linked && x.inRun)

/-- A request of fallow is accepted: on the lead half it is one for both. -/
def State.mayFallow (s : State) (h : HalfId) : Bool := s.leadOf h == h && !s.anyGrp h (fun x => !x.mayFallow)

/-- Lanes, bundles and the Ethernet port are at electrical idle (R556). -/
def Half.linksIdle (x : Half) : Half :=
  let y := (List.range 48).foldl (fun y l => (y.setRBit (Reg.lnkLaneStat l) 7 false).setRBit (Reg.lnkLaneStat l) 6 false) x
  let y := (List.range 12).foldl (fun y b =>
    if y.rbit (Reg.lnkTmBcfg b) 0 then
      (y.linkLost b).setBun b { Bundle.zero with st := .down, cfg := (y.bun b).cfg, degraded := (y.bun b).degraded
                                                 laneFlt := (y.bun b).laneFlt }
    else y) y
  if y.rbit Reg.lnkMeStat 0 then ((y.setRBit Reg.lnkMeStat 0 false).setRBit Reg.lnkMeStat 2 true).irq Reg.lnkMeIrq else y

/-- Entry (R556). -/
def Half.fallowEnter (x : Half) (by_ : FallowBy) : Half :=
  let y := x.traceSleep.ptmSleep.linksIdle
  ({ y with sys := { y.sys with fallow := some by_, wake := 0, slept := 0 } } : Half).pinWakes none

/-- Both halves, or the one, enter fallow; the partner waits for nothing of its own. -/
def State.fallowEnter (s : State) (h : HalfId) (by_ : FallowBy) : State :=
  (if s.paired h then s.upd (otherHalf h) (fun x => x.fallowEnter .seq) else s).upd h (fun x => x.fallowEnter by_)

/-- The lowest wake cause that has arisen (R557). -/
def Half.wakeCause (x : Half) : Option Nat := [1, 2, 3, 4].find? (fun c => natBit x.sys.wake c)

/-- A wake cause arises. -/
def Half.wakeBy (x : Half) (c : Nat) : Half :=
  if x.sys.fallow.isSome && !natBit x.sys.wake c then { x with sys := { x.sys with wake := x.sys.wake + 2 ^ c } } else x

/-- The FALLOW word (R555). -/
def Half.fallowWord (x : Half) (cause : Nat) : Nat := cause * 256 + x.rfld Reg.pinWakeStat 0 16 * 65536

/-- A mailbox command of instance `k` ends (R566, R576): DONE sets, and instance 0 raises its vector, in fallow too. -/
def Half.mbxDone (x : Half) (k result : Nat) (rsp : List (Nat × Nat)) : Half :=
  let y := rsp.foldl (fun y (e : Nat × Nat) => y.setReg (Reg.stwMbxRsp k e.1) (BitVec.ofNat 32 e.2)) x
  let was := y.rbit (Reg.stwMbxStat k) 1
  let y := ((y.setRFld (Reg.stwMbxStat k) 8 8 result).setRBit (Reg.stwMbxStat k) 0 false).setRBit (Reg.stwMbxStat k) 1 true
  let y := { y with sys := { y.sys with mbx := y.sys.mbx.filter (fun i => i != k) } }
  if k = 0 ∧ was = false ∧ y.rbit (Reg.stwMbxIrq 0) 31 = true ∧ y.pci.down = false then y.msixNow (y.rfld (Reg.stwMbxIrq 0) 0 8) else y

/-- Messages held in fallow leave. -/
def Half.sendLate (x : Half) : Half :=
  x.pci.late.foldl (fun y v => y.msix v) { x with pci := { x.pci with late := [] } }

/-- Exit (R541, R556, R557): pins, time and trace resume, bundles retrain, and who asked for fallow has its answer. -/
def Half.fallowExit (x : Half) (cause : Nat) : Half :=
  let by_ := x.sys.fallow
  let y := { x with sys := { x.sys with fallow := none, wake := 0 } }
  let y := (List.range 12).foldl (fun y b =>
    if y.rbit (Reg.lnkTmBcfg b) 0 then y.setBun b { y.bun b with st := .lock } else y) y
  let y := (y.pinsResume.tpoStep.traceWake).sendLate
  match by_, y.seq.wait with
  | some .seq, .fallow wd => y.endWait wd (BitVec.ofNat 64 (y.fallowWord cause))
  | some (.mbx k), _ => y.mbxDone k 0 [(0, y.fallowWord cause)]
  | _, _ => y

/-- FALLOW_EXIT (R557): the partner is woken with cause PARTNER. -/
def execFallowExit (h : HalfId) (s : State) : Host.Outcome State Fault Refusal :=
  let x := s.half h
  .next (match x.sys.fallow, x.wakeCause with
    | some _, some c =>
      let s := s.upd h (fun x => x.fallowExit c)
      if s.paired h then s.upd (otherHalf h) (fun y => y.wakeBy 4) else s
    | _, _ => s)

/-- WAKE_TIMER (R557, R575). -/
def execWakeTimer (h : HalfId) (s : State) : Host.Outcome State Fault Refusal :=
  .next (s.upd h (fun x => if x.rbit Reg.pwrWake 31 then x.wakeBy 3 else x))

/-! ## Release (R562 to R564) -/

/-- STAGE, in both registers. -/
def Half.setStage (x : Half) (n : Nat) : Half := (x.setRFld Reg.rstStatus 12 4 n).setRFld Reg.stwBoot 16 4 n

/-- The factory set of the ROM (R563). -/
def Half.factorySet (x : Half) : Bytes :=
  let b := bytesOf [1, 0, 0x0C, 0] ++ zeros 12 ++ netBytes 108 (Config.factoryTrim (halfNum x.self)).toNat
  b ++ leBytes 4 (crc32c b).toNat

/-- A copy of the option set passes (R562, R563). -/
def optOk (o : Bytes) : Bool :=
  o.length == 128 && leAt o 0 2 == 1 && (crc32c (o.take 0x7C)).toNat == leAt o 0x7C 4

/-- The shadow set commits. -/
def Half.commitOpt (x : Half) (o : Bytes) (copyB : Bool) : Half :=
  let y := (x.setReg Reg.clkRefCfg (BitVec.ofNat 32 (leAt o 2 1 % 64))).setRBit Reg.rstStatus 9 copyB
  ({ y with sec := { y.sec with opt := o } } : Half).setStage 2

/-- One attempt at the option load; `ok` says that OTP could be read. After three failed ones the half takes the safe
defaults. -/
def Half.loadOpt (x : Half) (ok : Bool) : Half :=
  if x.lcs = 0 then x.commitOpt x.factorySet false
  else if ok && optOk x.sec.otp.optA then x.commitOpt x.sec.otp.optA false
  else if ok && optOk x.sec.otp.optB then x.commitOpt x.sec.otp.optB true
  else
    let n := x.rfld Reg.rstStatus 10 2 + 1
    let y := x.setRFld Reg.rstStatus 10 2 n
    if n = 3 then
      let y := (((y.setRBit Reg.rstStatus 8 true).setRBit Reg.stwBoot 29 true).setStage 2).alert
      { y with sys := { y.sys with booting := false } }
    else y

/-- Stage 4: the ROM measures and starts the firmware; FAILS and its wait come back after a POR (R595). -/
def Half.stage4 (x : Half) : Half :=
  let y := if x.sys.por then
      let n := leAt (x.flashBytes failsAt 1) 0 1
      ((x.setRFld Reg.secLockout 0 8 n).setRBit Reg.secLockout 14 (decide (32 ≤ n))).setRFld Reg.secLockout 15 17 (lockWait n)
    else x
  if x.rbit Reg.secStatus 16 then x
  else
    match y.romBoot with
    | none => y.romStuck
    | some z => (((z.setRBit Reg.stwBoot 30 true).setRBit Reg.stwBoot 28 z.sys.newStop).setStage 4).alert

/-- The start-up march test: destructive, every store, with repair (R242). -/
def Half.startMarch (x : Half) : Half :=
  x.marchBegin 0xF9#32

/-- The next stage of the release sequence (R564). -/
def Half.nextStage (x : Half) (ok : Bool) (flags : Nat) : Half :=
  match x.rfld Reg.stwBoot 16 4 with
  | 0 => x.setStage 1
  | 1 => x.loadOpt ok
  | 2 =>
    if ok then (((x.setRFld Reg.clkStatus 8 2 x.clkPrimary).setRBit Reg.clkStatus 10 true).setStage 3) else x
  | 3 => x.stage4
  | 4 => x.setStage 5
  | 5 => ((x.setRFld Reg.stwBoot 26 2 (flags % 4)).setStage 6).startMarch
  | 6 => if x.marchBusy then x else x.setStage 7
  | 7 => x.setStage 8
  | 8 =>
    let y := (x.setStage 9).setRBit Reg.stwBoot 31 true
    { y with sys := { y.sys with booting := false, por := false } }
  | _ => x

/-- RELEASE_STAGE (R560, R564): while the half is released and its sequence not complete; `ok` says that the stage's work
succeeded, bits 1 and 0 of `flags` which HBM stacks failed training. -/
def execReleaseStage (h : HalfId) (ok : Bool) (flags : BitVec 8) (s : State) : Host.Outcome State Fault Refusal :=
  .next (s.upd h (fun x => if x.sys.booting && !x.heldInReset then x.nextStage ok flags.toNat else x))

end Sys2Proof.Machine
end

