-- ==== Sys2Proof/Machine/Steward.lean ====
section
/-!
DEFINITION. Machine/Steward.lean: the steward mailbox and its commands, life-cycle transitions, the TAP (R565 to R569,
R585 to R595). LOAD_IMAGE is in Machine/Loader.lean.
-/

namespace Sys2Proof.Machine

/-! ## The mailbox (R565, R566, R585) -/

/-- An argument of instance `k`. -/
def Half.arg (x : Half) (k i : Nat) : Nat := (x.reg (Reg.stwMbxArg k i)).toNat

/-- The commands that exist (R566, R585). -/
def mbxKnown (c : Nat) : Bool :=
  (decide (1 ≤ c) && decide (c ≤ 8)) || (decide (0x40 ≤ c) && decide (c ≤ 0x43)) || (decide (0x48 ≤ c) && decide (c ≤ 0x50))

/-- A GO (R565, R566): refused while a command is in progress or before the firmware runs; a command that does not exist
ends at once. -/
def Half.mbxGo (x : Half) (k : Nat) : Half :=
  let r := Reg.stwMbxStat k
  if x.rbit r 0 || !x.rbit Reg.stwBoot 30 then x.setRBit r 2 true
  else
    let y := x.setRBit r 0 true
    if mbxKnown (x.rfld (Reg.stwMbxCtrl k) 0 8) then { y with sys := { y.sys with mbx := y.sys.mbx ++ [k] } }
    else y.mbxDone k 0x40 []

/-- The steward may perform command `code` of instance `k`: it was given, and it is the first in order of arrival. A steward
core that is halted performs nothing. -/
def Half.mbxTurn (x : Half) (k code : Nat) : Bool :=
  decide (k < 3) && x.rbit (Reg.stwMbxStat k) 0 && x.rfld (Reg.stwMbxCtrl k) 0 8 == code && !x.sys.stwHalt &&
  x.sys.mbx.head? == some k

/-- Perform a command that instances below `n` accept (R585). -/
def Half.mbx (x : Half) (k code n : Nat) (f : Half → Half) : Half :=
  if x.mbxTurn k code then (if k < n then f x else x.mbxDone k 0x40 []) else x

/-- A place of `n` bytes in SP6 at an offset that is a multiple of 8; none otherwise. -/
def sp6 (off n : Nat) : Option Nat := if off % 8 = 0 ∧ off + n ≤ 0x100000 then some (spAddr 6 + off) else none

/-- The steward writes SP6 for a command, where `MEM_SP_ACL` grants it (R233, R234). -/
def Half.stwPut (x : Half) (a : Nat) (bs : Bytes) : Half := x.devWrite .stw a bs

/-- The steward reads SP6 for a command (R238). -/
def Half.stwGet (x : Half) (a n : Nat) : Bytes × Half := x.devRead .stw a n

/-- STATUS (R566). -/
def execMbxStatus (h : HalfId) (k : BitVec 2) (s : State) : Host.Outcome State Fault Refusal :=
  .next (s.upd h (fun x => x.mbx k.toNat 1 3 (fun y =>
    y.mbxDone k.toNat 0 [(0, (y.reg Reg.stwBoot).toNat), (1, (y.reg Reg.rstCause).toNat), (2, y.sec.fwVer)])))

/-- HOST_ENABLE (R476, R566, R588). -/
def execHostEnable (h : HalfId) (k : BitVec 2) (s : State) : Host.Outcome State Fault Refusal :=
  .next (s.upd h (fun x => x.mbx k.toNat 2 3 (fun y =>
    if y.permitted then (y.hostEnable (natBit (y.arg k.toNat 0) 0)).mbxDone k.toNat 0 [] else y.mbxDone k.toNat 0x42 [])))

/-- FALLOW (R555, R566): accepted, it ends at the exit. -/
def execMailboxFallow (h : HalfId) (k : BitVec 2) (s : State) : Host.Outcome State Fault Refusal :=
  .next (if (s.half h).mbxTurn k.toNat 4 then
      if s.mayFallow h then
        (s.upd h (fun x => { x with sys := { x.sys with mbx := x.sys.mbx.filter (fun i => i != k.toNat) } })).fallowEnter h
          (.mbx k.toNat)
      else s.upd h (fun x => x.mbxDone k.toNat 1 [])
    else s)

/-- WAKE (R557, R566). -/
def execWake (h : HalfId) (k : BitVec 2) (s : State) : Host.Outcome State Fault Refusal :=
  .next (s.upd h (fun x => x.mbx k.toNat 5 3 (fun y => (y.wakeBy 2).mbxDone k.toNat 0 [])))

/-- HALF_RESET (R566): no response. -/
def execHalfReset (h : HalfId) (k : BitVec 2) (s : State) : Host.Outcome State Fault Refusal :=
  .next (s.upd h (fun x => x.mbx k.toNat 6 3 (fun y => y.assertHalf 3)))

/-- The stop record of a slot, if it is one (R549). -/
def Half.stopAt (x : Half) (i : Nat) : Option Bytes :=
  let b := x.flashBytes (stopBase + i * 8192) 0x48
  let n := 0x48 + 16 * (leAt b 0x0C 2 + leAt b 0x0E 2)
  if leAt b 0 4 = 0x534E524C ∧ leAt b 4 2 = 1 ∧ n + 4 ≤ 8192 then
    let r := x.flashBytes (stopBase + i * 8192) (n + 4)
    if (crc32c (r.take n)).toNat = leAt r n 4 then some r else none
  else none

/-- The newest valid stop record. -/
def Half.newestStop (x : Half) : Option Bytes :=
  (List.range 32).foldl (fun (a : Option Bytes) i =>
    match a, x.stopAt i with
    | some b, some r => if leAt b 8 4 < leAt r 8 4 then some r else some b
    | none, r => r
    | a, none => a) none

/-- READ_STOP (R549, R566). -/
def execReadStop (h : HalfId) (k : BitVec 2) (s : State) : Host.Outcome State Fault Refusal :=
  .next (s.upd h (fun x => x.mbx k.toNat 7 3 (fun y =>
    match y.newestStop with
    | some r =>
      match sp6 (y.arg k.toNat 0) r.length with
      | some a => (y.stwPut a r).mbxDone k.toNat 0 [(0, r.length)]
      | none => y.mbxDone k.toNat 0x41 []
    | none => y.mbxDone k.toNat 0x43 [])))

/-- CLEAR_STOP (R549, R566). -/
def execClearStop (h : HalfId) (k : BitVec 2) (s : State) : Host.Outcome State Fault Refusal :=
  .next (s.upd h (fun x => x.mbx k.toNat 8 3 (fun y =>
    (({ y with sys := { y.sys with newStop := false } } : Half).setRBit Reg.stwBoot 28 false).mbxDone k.toNat 0 [])))

/-! ## Measurements (R585, R586) -/

/-- A byte string as response words from word 0 up. -/
def rspWords (bs : Bytes) : List (Nat × Nat) := (List.range (bs.length / 4)).map (fun w => (w, leAt bs (4 * w) 4))

/-- The bytes of the arguments from `i` to `i + n − 1`. -/
def Half.argBytes (x : Half) (k i n : Nat) : Bytes := (List.range n).flatMap (fun j => leBytes 4 (x.arg k (i + j)))

/-- GET_MEAS (R585). -/
def execGetMeas (h : HalfId) (k : BitVec 2) (s : State) : Host.Outcome State Fault Refusal :=
  .next (s.upd h (fun x => x.mbx k.toNat 0x40 3 (fun y =>
    let i := y.arg k.toNat 0
    if i < 8 then y.mbxDone k.toNat 0 (rspWords (y.msBytes i) ++ [(12, (y.reg (Reg.secMsCnt i)).toNat)])
    else y.mbxDone k.toNat 0x41 [])))

/-- A quote (R586). -/
def Half.quote (x : Half) (nonce : Bytes) : Bytes × Half :=
  let body := bytesOf [0x4C, 0x52, 0x4E, 0x51, 1, 0, halfNum x.self, x.lcs, bitNat x.debugOpen, x.debugScope, 0, 0] ++
    leBytes 4 x.sec.fwSvn ++ nonce ++ x.msCounts ++ (List.range 8).flatMap x.msBytes
  let (g, y) := x.sign
  (body ++ g, y)

/-- ATTEST (R585, R586). -/
def execAttest (h : HalfId) (k : BitVec 2) (s : State) : Host.Outcome State Fault Refusal :=
  .next (s.upd h (fun x => x.mbx k.toNat 0x41 2 (fun y =>
    if !y.signs then y.mbxDone k.toNat 0x42 []
    else
      match sp6 (y.arg k.toNat 0) 560 with
      | some a =>
        let (q, z) := y.quote (y.argBytes k.toNat 1 8)
        (z.stwPut a q).mbxDone k.toNat 0 []
      | none => y.mbxDone k.toNat 0x41 [])))

/-- GET_CERT (R582, R585). -/
def execGetCert (h : HalfId) (k : BitVec 2) (s : State) : Host.Outcome State Fault Refusal :=
  .next (s.upd h (fun x => x.mbx k.toNat 0x42 2 (fun y =>
    match y.chain with
    | some c =>
      match sp6 (y.arg k.toNat 0) c.length with
      | some a => if c.length ≤ y.arg k.toNat 1 then (y.stwPut a c).mbxDone k.toNat 0 [(0, c.length)] else y.mbxDone k.toNat 0x41 []
      | none => y.mbxDone k.toNat 0x41 []
    | none => y.mbxDone k.toNat 0x43 [])))

/-- EXTEND (R579, R585). -/
def execExtend (h : HalfId) (k : BitVec 2) (s : State) : Host.Outcome State Fault Refusal :=
  .next (s.upd h (fun x => x.mbx k.toNat 0x43 3 (fun y => (y.extendMs 7 (y.argBytes k.toNat 0 12)).mbxDone k.toNat 0 [])))

/-! ## Life cycle (R588 to R592) -/

/-- A transition (R591): HOST_EN falls and debug closes, OTP is programmed, secure memory wiped, MS6 extended; debug then
stands as the new state has it. -/
def Half.transit (x : Half) (f : Otp → Otp) : Half :=
  let y := (x.hostEnable false).closeDebug
  let y := ({ y with sec := { y.sec with otp := f y.sec.otp } } : Half).voidNonce
  (y.wipe.secShow.debugByState).secRecord 4 0

/-- PROVISION (R589): the identity key is generated, the option set programmed into both copies. -/
def execProvision (h : HalfId) (k : BitVec 2) (s : State) : Host.Outcome State Fault Refusal :=
  .next (s.upd h (fun x => x.mbx k.toNat 0x48 1 (fun y =>
    if y.lcs ≠ 0 then y.mbxDone k.toNat 0x47 []
    else
      match sp6 (y.arg k.toNat 0) 128, sp6 (y.arg k.toNat 1) 96 with
      | some a, some b =>
        let (o, y) := y.stwGet a 128
        let (pub, z) := y.random 96
        let z := (z.stwPut b pub).transit (fun t => { t with optA := o, optB := o, lcs := 1, key := some pub })
        z.mbxDone k.toNat 0 []
      | _, _ => y.mbxDone k.toNat 0x41 [])))

/-- CERT_WRITE (R589): once only. -/
def execCertWrite (h : HalfId) (k : BitVec 2) (s : State) : Host.Outcome State Fault Refusal :=
  .next (s.upd h (fun x => x.mbx k.toNat 0x49 1 (fun y =>
    let n := y.arg k.toNat 1
    if y.lcs ≠ 1 ∨ y.sec.otp.chain.isSome then y.mbxDone k.toNat 0x47 []
    else if 16384 < n then y.mbxDone k.toNat 0x41 []
    else
      match sp6 (y.arg k.toNat 0) n with
      | some a =>
        let (c, y) := y.stwGet a n
        let z := y.flashWrite chainBase c
        ({ z with sec := { z.sec with otp := { z.sec.otp with chain := some (sha384 c, n) } } } : Half).secShow.mbxDone k.toNat 0 []
      | none => y.mbxDone k.toNat 0x41 [])))

/-- TAKE_OWNERSHIP (R589): the next of four owner slots. -/
def execTakeOwnership (h : HalfId) (k : BitVec 2) (s : State) : Host.Outcome State Fault Refusal :=
  .next (s.upd h (fun x => x.mbx k.toNat 0x4A 1 (fun y =>
    if y.lcs ≠ 1 then y.mbxDone k.toNat 0x47 []
    else if 4 ≤ y.sec.otp.owners.length then y.mbxDone k.toNat 0x46 []
    else
      match sp6 (y.arg k.toNat 0) 160 with
      | some a =>
        let (r, y) := y.stwGet a 160
        (y.transit (fun t => { t with owners := t.owners ++ [r], owner := some t.owners.length, lcs := 2 })).mbxDone k.toNat 0 []
      | none => y.mbxDone k.toNat 0x41 [])))

/-- SCRAP (R581, R588, R589): the identity key is destroyed. -/
def scrapOtp (t : Otp) : Otp := { t with lcs := 4, key := none }

/-- SCRAP (R589): with the confirmation value; not from OWNED. -/
def execScrap (h : HalfId) (k : BitVec 2) (s : State) : Host.Outcome State Fault Refusal :=
  .next (s.upd h (fun x => x.mbx k.toNat 0x4F 1 (fun y =>
    if y.lcs = 2 ∨ y.lcs = 4 then y.mbxDone k.toNat 0x47 []
    else if y.arg k.toNat 0 = 0x5C2A9D11 then (y.transit scrapOtp).mbxDone k.toNat 0 []
    else y.mbxDone k.toNat 0x41 [])))

/-- GET_NONCE (R590): it replaces the nonce before it; the steward's write to secure memory clears WIPED (R596). -/
def execGetNonce (h : HalfId) (k : BitVec 2) (s : State) : Host.Outcome State Fault Refusal :=
  .next (s.upd h (fun x => x.mbx k.toNat 0x4B 1 (fun y =>
    let (n, z) := y.random 48
    (({ z with sec := { z.sec with nonce := some n } } : Half).setRBit Reg.secStatus 18 false).mbxDone k.toNat 0 (rspWords n))))

/-- The token verifies (R590). -/
def Half.tokenOk (x : Half) (tok sig : Bytes) : Bool :=
  match x.ownerRec, x.sec.nonce with
  | some o, some n =>
    Config.ecdsaVerify (o.take 96) tok sig && leAt tok 0 4 == 0x544E524C && leAt tok 4 2 == 1 &&
    leAt tok 6 1 == halfNum x.self && (tok.drop 8).take 8 == x.serial && (tok.drop 0x10).take 48 == n
  | _, _ => false

/-- What a verified token does. -/
def Half.ownerAct (x : Half) (k : Nat) (tok : Bytes) : Half :=
  match leAt tok 7 1 with
  | 1 => ((x.setFails 0 0).openDebug (leAt tok 0x40 4 % 16) 1).mbxDone k 0 []
  | 2 => (x.transit (fun t => { t with lcs := 3 })).mbxDone k 0 []
  | 3 => (x.transit (fun t => { t with lcs := 1, owner := none })).mbxDone k 0 []
  | 4 => (x.transit scrapOtp).mbxDone k 0 []
  | _ => x.mbxDone k 0x41 []

/-- OWNER_ACTION (R589, R590, R595): a nonce is spent by the action that is verified, whatever the outcome. -/
def execOwnerAction (h : HalfId) (k : BitVec 2) (s : State) : Host.Outcome State Fault Refusal :=
  .next (s.upd h (fun x => x.mbx k.toNat 0x4C 1 (fun y =>
    if y.lcs ≠ 2 then y.mbxDone k.toNat 0x47 []
    else if y.locked then y.mbxDone k.toNat 0x44 []
    else
      match sp6 (y.arg k.toNat 0) 168 with
      | none => y.mbxDone k.toNat 0x41 []
      | some a =>
        let (b, y) := y.stwGet a 168
        let tok := b.take 72
        let ok := y.tokenOk tok (b.drop 72)
        let z := y.voidNonce
        if ok then z.ownerAct k.toNat tok
        else (if leAt tok 7 1 = 1 then z.countFail else z).mbxDone k.toNat 0x45 [])))

/-- UNLOCK_PWD (R594, R595). -/
def execUnlockPwd (h : HalfId) (k : BitVec 2) (s : State) : Host.Outcome State Fault Refusal :=
  .next (s.upd h (fun x => x.mbx k.toNat 0x4D 1 (fun y =>
    let n := y.arg k.toNat 1
    if y.lcs ≠ 2 then y.mbxDone k.toNat 0x47 []
    else
      match y.ownerRec, sp6 (y.arg k.toNat 0) n with
      | some o, some a =>
        if n < 8 ∨ 64 < n then y.mbxDone k.toNat 0x41 []
        else if y.locked || decide (32 ≤ y.fails) || natBit (leAt o 144 4) 0 then y.mbxDone k.toNat 0x44 []
        else
          let (p, y) := y.stwGet a n
          if sha384 (y.serial ++ p) = (o.drop 96).take 48 then
            ((y.setFails 0 0).openDebug (y.arg k.toNat 2 &&& leAt o 148 4 % 16) 2).mbxDone k.toNat 0 []
          else y.countFail.mbxDone k.toNat 0x45 []
      | _, _ => y.mbxDone k.toNat 0x41 [])))

/-- DEBUG_CLOSE (R585, R592). -/
def execDebugClose (h : HalfId) (k : BitVec 2) (s : State) : Host.Outcome State Fault Refusal :=
  .next (s.upd h (fun x => x.mbx k.toNat 0x4E 1 (fun y => y.closeDebug.mbxDone k.toNat 0 [])))

/-- FW_STAGE (R585): the image goes to the slot not chosen at boot. -/
def execFwStage (h : HalfId) (k : BitVec 2) (s : State) : Host.Outcome State Fault Refusal :=
  .next (s.upd h (fun x => x.mbx k.toNat 0x50 1 (fun y =>
    let n := y.arg k.toNat 1
    match sp6 (y.arg k.toNat 0) n with
    | some a =>
      let (b, y) := y.stwGet a n
      (y.flashWrite (fwBase (!y.rbit Reg.secStatus 17)) b).mbxDone k.toNat 0 []
    | none => y.mbxDone k.toNat 0x41 [])))

/-! ## The TAP (R593) -/

/-- An instruction that SCRAPPED closes. -/
def Half.tapOpen (x : Half) : Bool := x.lcs != 4

/-- EXTEST (R439, R593): boundary scan drives the pads. -/
def execExtest (h : HalfId) (drive enable : BitVec 64) (s : State) : Host.Outcome State Fault Refusal :=
  .next (s.upd h (fun x =>
    if x.tapOpen then { x with pins := { x.pins with scan := drive, scanEn := enable, extest := true } } else x))

/-- SAMPLE/PRELOAD (R593): the pads' levels are shifted out, the boundary register is loaded. -/
def execSamplePreload (h : HalfId) (preload : BitVec 64) (s : State) : Host.Outcome State Fault Refusal :=
  .next (s.upd h (fun x =>
    if x.tapOpen then
      let v := (List.range 64).foldl (fun n i => n + bitNat (x.padSeen i) * 2 ^ i) 0
      ({ x.tapLeave with pins := { x.pins with scan := preload, extest := false } } : Half).emit (.tdo (leBytes 8 v))
    else x))

/-- IDCODE (R593). -/
def execIdcode (h : HalfId) (s : State) : Host.Outcome State Fault Refusal :=
  .next (s.upd h (fun x => x.tapLeave.emit (.tdo (leBytes 4 0x24D32B67))))

/-- FLASH_PROG (R593): the boot flash is programmed or read. -/
def execFlashProg (h : HalfId) (write : Bool) (addr : BitVec 32) (data : Bytes) (s : State) : Host.Outcome State Fault Refusal :=
  .next (s.upd h (fun x =>
    if x.tapOpen then
      if write then x.tapLeave.flashWrite addr.toNat data
      else x.tapLeave.emit (.tdo (x.flashBytes addr.toNat data.length))
    else x))

/-- A private instruction is available (R593). -/
def Half.tapPrivate (x : Half) : Bool := x.debugOpen && natBit x.debugScope 0

/-- STW_HALT (R593). -/
def execStwHalt (h : HalfId) (halted : Bool) (s : State) : Host.Outcome State Fault Refusal :=
  .next (s.upd h (fun x =>
    if x.tapPrivate then { x.tapLeave with sys := { x.sys with stwHalt := halted } } else x.tapLeave))

/-- BYPASS (R593). -/
def execBypass (h : HalfId) (s : State) : Host.Outcome State Fault Refusal := .next (s.upd h Half.tapLeave)

end Sys2Proof.Machine
end

