-- ==== Sys2Proof/Machine/Loader.lean ====
section
/-!
DEFINITION. Machine/Loader.lean: what an image load writes, and the load command (R109 to R113, R126, R169, R202, R226,
R232, R281, R331, R341, R418, R567, R568).
-/

namespace Sys2Proof.Machine

/-! ## What a section writes -/

/-- Bytes that a section writes, with their device addresses in a half (R103 to R106, R127, R201, R231, R330). -/
def Image.writes (im : Image) (c : Sect) : List (Nat × Bytes) :=
  let p := im.pre c
  let bytes (o n : Nat) : Bytes := im.bytes (c.off + o) n
  let rows (base stride per : Nat) : List (Nat × Bytes) :=
    (List.range p.bpn).map (fun b => (base + (p.bp0 + b) * stride, bytes (16 + b * per) per))
  match c.typ with
  | 1 => rows (bpWordAddr (c.tile * 1024) p.first) 0x8000 (8 * p.cnt)
  | 2 => [(palAddr c.tile 0 0, im.body c)]
  | 3 => rows (attrBase c.tile + p.first / 2) 0x800 (p.cnt / 2)
  | 4 => rows (slotAddr (c.tile * 1024) p.first) 0x800 (p.cnt / 8)
  | 0x10 => (List.range p.cnt).map (fun s => (moveAddr c.tile (p.first + s) 0, bytes (16 + 384 * s) 384))
  | 0x20 =>
    let r := im.rp c
    [(spAddr 0, bytes (r.wordOff 0) (4 * r.prog)), (spAddr 0 + r.dataO, bytes r.dataOff r.dataN)]
  | 0x31 => (im.blocks c).map (fun b => (spAddr 2 + 64 * b.idx, im.blockBytes c b))
  | 0x50 => (im.recs c).map (fun r =>
      ((if c.tile = 0xFF then hbmBase else bankAddr c.tile) + r.tgt, bytes (r.off + 16) r.len))
  | _ => []

/-- The steward's loader writes bytes of a half's memories: a scratchpad where `MEM_SP_ACL` grants it (R233, R234). -/
def Half.putBytes (x : Half) (a : Nat) (bs : Bytes) : Half :=
  if spAddr 0 ≤ a ∧ a < spAddr 8 ∧ x.spWrites (a / 0x100000 - 0x8C0) .stw = false then x
  else
    let ws := mergedWords a bs.length
    if ws.any (fun w => x.eccAt w == some true) && decide (0x88000000 ≤ a) && decide (a < attrBase 0) then ws.foldl Half.memUncorr x
    else (x.wrMemBytes a bs).eccClear a bs.length

/-- Put what a section writes into a half's memories. -/
def Half.putSect (x : Half) (im : Image) (c : Sect) : Half := (im.writes c).foldl (fun y w => y.putBytes w.1 w.2) x

/-- Bytes that a load sets to 0 where no section covers them: instruction words, slots, banks, SP0, the descriptor table,
palettes, attributes, moves (R109, R202, R232, R331). -/
def loadBlank (a : Nat) : Bool :=
  decide (a < spAddr 1) || (decide (spAddr 2 ≤ a) && decide (a < spAddr 2 + 0x40000)) ||
  (decide (palAddr 0 0 0 ≤ a) && decide (a < palAddr 64 0 0)) || (decide (attrBase 0 ≤ a) && decide (a < attrBase 64)) ||
  (decide (swBase 0 ≤ a) && decide (a < swBase 64))

/-- The sections that a half takes. -/
def Image.mine (im : Image) (h : HalfId) : List Sect := im.sects.filter (fun c => c.half == im.part h)

/-- The memories after a load: everything blank, then the sections. -/
def Half.loadMem (x : Half) (im : Image) : Half :=
  let y := x.clearMem loadBlank
  let y := { y with ar := { y.ar with ecc := keepKeys (fun a => !loadBlank a) y.ar.ecc } }
  let y := ((y.touch (bankAddr 0) (64 * 0x100000)).touch (spAddr 0) 0x100000).touch (spAddr 2) 0x40000
  (im.mine x.self).foldl (fun y c => y.putSect im c) y

/-! ## What else a load leaves (R110, R126, R169, R202, R226, R232, R281, R296, R331, R341, R418) -/

/-- Every register of the exchange and the ports' read data at 0, nothing in flight (R58, R126, R226). -/
def Half.loadArray (x : Half) : Half :=
  { x with ar := { Array.zero with lin := x.ar.lin, ecc := x.ar.ecc, bpFault := x.ar.bpFault, xchFault := x.ar.xchFault } }

/-- The memory ports of every tile (R232). -/
def Half.loadPorts (x : Half) (im : Image) : Half :=
  (List.range 256).foldl (fun y i =>
    let n := i / 4
    let p := i % 4
    match (im.ofTile 0x50 (im.part x.self) n).head? with
    | some c => (y.setReg (Reg.tilMportCfg n p) (BitVec.ofNat 32 (im.at c (16 * p) 4))).setReg (Reg.tilMportBase n p)
        (BitVec.ofNat 32 (im.at c (16 * p + 4) 4))
    | none => y.setRFld (Reg.tilMportCfg n p) 0 2 0) x

/-- The run program, the descriptors and the counters of a half (R169, R170, R202). -/
def Half.loadRun (x : Half) (im : Image) (mode : Mode) : Half :=
  match (im.of 0x20 (im.part x.self)).head? with
  | none => x
  | some c =>
    let r := im.rp c
    let y := (List.range 128).foldl (fun y d => (List.range 8).foldl (fun y w => y.setReg (Reg.edgDesc d w) 0#32) y) x
    let y := (List.range r.descs).foldl (fun y i =>
      match slotOf mode x.self (im.desc c i).dom with
      | some d => (List.range 8).foldl (fun y w =>
          y.setReg (Reg.edgDesc d w) (BitVec.ofNat 32 (im.at c (rpDescOff i + 4 * w) 4))) y
      | none => y) y
    let y := y.setReg Reg.edgExtgap (BitVec.ofNat 32 r.gap)
    let s : Seq := { y.seq with
      pc := BitVec.ofNat 14 r.entry, exec := .halted, wait := .none, progWords := r.prog }
    ({ y with
      seq := s, seqCopy := s
      run := { y.run with
        loaded := some mode, lead := y.self == .h0, cyc := 0#64, startVt := BitVec.ofNat 64 r.start, req := none, cond := none
        holdCyc := none, holdVt := none, stall := none, rest := [], decided := none, idle := none, pend := []
        ext := [], hfault := false, linkEnd := false, assured := im.assured } } : Half).enter .ready

/-- The design message ports, the templates and the standing transactions (R268, R281, R288). -/
def Half.loadTxe (x : Half) (im : Image) : Half :=
  let y := (List.range 256).foldl (fun y p =>
    ((((y.setReg (Reg.txeDpCfg p) 0#32).setReg (Reg.txeDpBuf p) 0#32).setReg (Reg.txeDpMsg p) 0#32).setReg
      (Reg.txeDpStat p) 0#32).setReg64 (Reg.txeDpOseqLo p) (Reg.txeDpOseqHi p) 0) x.txeLoad
  match (im.of 0x30 (im.part x.self)).head? with
  | none => y
  | some c =>
    let y := (im.portRecs c).foldl (fun y r =>
      ((y.setReg (Reg.txeDpCfg r.port) (BitVec.ofNat 32
        (2 ^ 31 + r.tile * 2 ^ 25 + r.wid * 2 ^ 23 + r.inB * 2 ^ 16 + r.outB * 2 ^ 9 + r.dom))).setReg
        (Reg.txeDpBuf r.port) (BitVec.ofNat 32 (r.outN * 2 ^ 16 + r.inN))).setReg (Reg.txeDpMsg r.port)
        (BitVec.ofNat 32 r.msg)) y
    let z := (im.tmpls c).zipIdx.foldl (fun y (t : Tmpl × Nat) =>
      let y := { y with txe := { y.txe with tmpl := sput y.txe.tmpl t.2 none (some t.1) } }
      if t.1.standing then y.setTxn t.2 (some (Txn.new t.1 t.2)) else y) y
    { z with txe := { z.txe with created := 256 } }

/-- Every engine IDLE; records already formed still reach their memory (R296, R331). -/
def Half.loadEngines (x : Half) (t : PtpTime) : Half :=
  let y := x.abortAll t
  { y with eng := { y.eng with
    trg := y.eng.trg.map (fun (e : Nat × TrgEng) => (e.1, { e.2 with st := .idle, desc := none, abort := none, prev := none, used := none }))
    cap := y.eng.cap.map (fun (e : Nat × CapEng) => (e.1, { e.2 with st := .idle, abort := none }))
    ply := []
    arming := [] } }

/-- The fabric load of an image's FABRIC section (R395 to R398, R579), and the channels (R406, R418). -/
def Half.loadFabric (x : Half) (im : Image) : Half :=
  match (im.of 0x40 (im.part x.self)).head? with
  | none => x.loadChans []
  | some c =>
    let b := im.body c
    let h := bsHead b
    let fs := bsFrames (b.drop (64 + 16 * h.chans)) h.frames
    let y := (x.extendMs 5 (sha384 b)).holdCols allCols
    let y := { y with fab := { y.fab with rel := none, gsr := natBit h.flags 0 || y.fab.gsr } }
    let z := y.fabCommit h (writeFrames (blankRegion y.fab.frames allCols) allCols fs) false false
    z.loadChans ((List.range h.chans).map (fun i => (b.drop (64 + 16 * i)).take 16))

/-- Assured operation is off, its generations and its journal are gone (R341). -/
def Half.loadAsr (x : Half) (im : Image) : Half :=
  (({ x with asr := { x.asr with
    st := .off, active := false, gens := [], journal := [], jseq := 0, jpos := 0, waiting := [], gates := [], patBad := [], patAgain := false
    phase := none, fresh := none, deliv := []
    replay := none, episode := none, rewrite := false, mGens := [], mJrnl := [], recur := false, restoring := none
    landed := false, taking := false, ckptCyc := none, sigs := none, imgCrc := BitVec.ofNat 32 (im.num 0x3C 4)
    buildId := BitVec.ofNat 64 im.buildId, image := (im.base - hbmBase, im.len) } } : Half).setRBit Reg.asrCtrl 0 false).setRFld Reg.asrStatus 18 2 0

/-- A successful load in one target half. -/
def Half.loadAll (x : Half) (im : Image) (mode : Mode) (t : PtpTime) : Half :=
  let y := (((x.loadEngines t).loadTxe im).loadMem im).loadArray
  ((((y.loadPorts im).loadFabric im).unbindPins.loadAsr im).loadRun im mode).txeAfter

/-- A half that changes the count it uses drops its ACTIVE and PACKET bundles (R164). -/
def Half.dropLinks (x : Half) : Half :=
  (List.range 12).foldl (fun y b => if (y.bun b).live then y.bundleDown b 0#8 else y) x

/-- A successful load for mode `mode`: half 1 moves to the lead half's link step counter, or back to its own (R164). -/
def State.moveCount (s : State) (mode : Mode) : State :=
  let one := mode != .split
  if s.h1.run.oneLsc = one then s
  else s.upd .h1 (fun x =>
    let y := x.dropLinks
    { y with run := { y.run with oneLsc := one, lsc := if one then s.h0.run.lsc else y.run.lsc } })

/-! ## The load command (R110, R111, R567, R568) -/

/-- The mode that MODE asks for. -/
def modeOf (n : Nat) : Mode := match n with
  | 0 => .joined
  | 1 => .paired
  | _ => .split

/-- The target halves of a load issued on half `h`. -/
def loadTargets (h : HalfId) (mode : Nat) : List HalfId := if mode < 2 then [.h0, .h1] else [h]

/-- The image of a load issued on half `h`. -/
def Half.staged (x : Half) (mode off len : Nat) : Image :=
  { mem := x.soundMem, base := hbmBase + off, len := len, mode := mode, targets := loadTargets x.self mode }

/-- The status record (R568). -/
def statusRec (result code sect half off warns build : Nat) : List (Nat × Nat) :=
  [(0, result + code * 2 ^ 8 + sect * 2 ^ 16), (1, half), (2, off), (3, off / 2 ^ 32), (4, warns), (5, build), (6, build / 2 ^ 32),
   (7, 0)]

/-- Some target half is in a run or under a march test (R110, R242). -/
def State.loadBusy (s : State) (ts : List HalfId) : Bool := ts.any (fun h => (s.half h).inRun || (s.half h).marchBusy)

/-- Change every target half. -/
def State.each (s : State) (ts : List HalfId) (f : Half → Half) : State := ts.foldl (fun t h => t.upd h f) s

/-- LOAD_IMAGE begins (R110, R566, R567, R579, R588): refused where the life-cycle state forbids it or the option set has
failed, and in fallow, which no load may wake (log entry 127); BUSY during a run or a march test; otherwise the target
halves are not loaded until it has succeeded. -/
def State.beginLoad (s : State) (h : HalfId) (k : Nat) : State :=
  let x := s.half h
  let off := x.arg k 0 + x.arg k 1 * 2 ^ 32
  let len := x.arg k 2 + x.arg k 3 * 2 ^ 32
  let mode := x.arg k 4 % 4
  let ts := loadTargets h mode
  if !x.permitted || x.rbit Reg.stwBoot 29 || ts.any (fun i => (s.half i).sys.fallow.isSome) then s.upd h (fun y => y.mbxDone k 1 [])
  else if off % 64 ≠ 0 ∨ 2 * stackBytes < off + len ∨ (mode < 2 ∧ h = .h1) then s.upd h (fun y => y.mbxDone k 0x41 [])
  else
    -- the image is read from the HBM of the half (R239)
    let s := s.upd h (fun y => y.noteReads (hbmBase + off) len)
    let t := s.each ts (fun y => y.extendMs 4 (sha384 (rdBytes y.soundMem (hbmBase + off) len)))
    if s.loadBusy ts then t.upd h (fun y => y.mbxDone k 0 (statusRec 3 0 0 0 0 0 ((y.staged mode off len).buildId)))
    else (t.each ts Half.unload).upd h (fun y => { y with sys := { y.sys with load := some (k, mode, off, len) } })

/-- LOAD_IMAGE (R566, R567). -/
def execLoadImage (h : HalfId) (k : BitVec 2) (s : State) : Host.Outcome State Fault Refusal :=
  .next (if (s.half h).mbxTurn k.toNat 3 && (s.half h).sys.load.isNone then s.beginLoad h k.toNat else s)

/-- What a failed load has already written (R110): the sections before the one at fault, as far as an open number says. -/
def Half.loadPart (x : Half) (im : Image) (upto : Nat) : Half :=
  let (n, y) := x.fresh 16
  ((im.mine x.self).filter (fun c => decide (c.idx < upto) && decide (c.idx < n.toNat))).foldl (fun y c => y.putSect im c) y

/-- The end of a load: the checks, then the stores, then the status record (R110 to R112, R568, R603). -/
def State.finishLoad (s : State) (h : HalfId) (k mode off len : Nat) : State :=
  let im := (s.half h).staged mode off len
  let fs := im.check s
  let warns := (fs.filter (fun f => isWarn f.code)).length
  let t := s.upd h (fun y => { y with sys := { y.sys with load := none } })
  match fs.find? (fun f => !isWarn f.code) with
  | some f =>
    let body := !hasError (im.header s) && !hasError im.table
    let t := if body then t.each im.targets (fun y => y.loadPart im f.at_) else t
    t.upd h (fun y => y.mbxDone k 0 (statusRec 2 f.code f.sect f.half f.off warns im.buildId))
  | none =>
    let m := modeOf mode
    let t := (t.moveCount m).each im.targets (fun y => y.loadAll im m (s.recTime y.self))
    let t := if im.targets.length = 1 then t.upd (otherHalf h) (fun y => { y with asr := { y.asr with mGens := [], mJrnl := [] } }) else t
    t.upd h (fun y => match fs with
      | f :: _ => y.mbxDone k 0 (statusRec 1 f.code f.sect f.half f.off warns im.buildId)
      | [] => y.mbxDone k 0 (statusRec 0 0 0 0 0 0 im.buildId))

/-- IMAGE_LOAD_DONE (R109 to R113, R567, R568). -/
def execImageLoadDone (h : HalfId) (s : State) : Host.Outcome State Fault Refusal :=
  .next (match (s.half h).sys.load with
    | some (k, mode, off, len) => if (s.half h).sys.stwHalt then s else s.finishLoad h k mode off len
    | none => s)

/-! ## Rewriting stores during recovery in place (R360) -/

/-- Tiles with an uncorrectable error in an instruction word, a palette entry or a move. -/
def Half.badTiles (x : Half) : List Nat :=
  (List.range 64).filter (fun n => x.ar.ecc.any (fun (e : Nat × Option Bool) => e.2 == some true &&
    ((decide (bpWordAddr (n * 1024) 0 ≤ e.1) && decide (e.1 < bpWordAddr (n * 1024 + 1024) 0)) ||
     (decide (palAddr n 0 0 ≤ e.1) && decide (e.1 < palAddr (n + 1) 0 0)) ||
     (decide (swBase n ≤ e.1) && decide (e.1 < swBase (n + 1))))))

/-- Instruction words, palette entries, attributes and moves of tile `n`. -/
def tileStore (n a : Nat) : Bool :=
  (decide (bpWordAddr (n * 1024) 0 ≤ a) && decide (a < bpWordAddr (n * 1024 + 1024) 0)) ||
  (decide (palAddr n 0 0 ≤ a) && decide (a < palAddr (n + 1) 0 0)) || (decide (attrBase n ≤ a) && decide (a < attrBase (n + 1))) ||
  (decide (swBase n ≤ a) && decide (a < swBase (n + 1)))

/-- The steward rewrites the stores of the affected tiles from the retained image (R360). -/
def Half.rewriteStores (x : Half) : Half :=
  let im : Image := { mem := x.soundMem, base := hbmBase + x.asr.image.1, len := x.asr.image.2, mode := 0, targets := [x.self] }
  x.badTiles.foldl (fun y n =>
    let z := y.clearMem (tileStore n)
    let z := { z with ar := { z.ar with
      ecc := keepKeys (fun a => !tileStore n a) z.ar.ecc, pendBp := sput z.ar.pendBp n 0 0, pendSw := sput z.ar.pendSw n 0 0 } }
    ((im.mine x.self).filter (fun c => c.tile == n && [1, 2, 3, 0x10].contains c.typ)).foldl (fun z c => z.putSect im c) z) x

end Sys2Proof.Machine
end

