-- ==== Sys2Proof/Machine/Run.lean ====
section
/-!
DEFINITION. Machine/Run.lean: the tick: its decision, its dispatches, the steps of a sub-schedule, the boundary, the
stall point and the input commit (R28 to R33, R173 to R191, R350, R361, R365).
-/

namespace Sys2Proof.Machine

/-! ## Halves of a run -/

/-- The halves whose journal, fabric inputs and pins act for the run of `h`: in PAIRED the lead half alone. -/
def State.heads (s : State) (h : HalfId) : List HalfId :=
  if s.paired h then (if (s.half h).run.mode == .paired then [s.leadOf h] else [.h0, .h1]) else [h]

/-- The halves of the run of `h`. -/
def State.members (s : State) (h : HalfId) : List HalfId := if s.paired h then [.h0, .h1] else [h]

/-- Some event or a wait of assured operation keeps a decided tick from being dispatched: the run is not RUNNING nor
replaying, a linked start waits, generation 0 is being copied (R350), or the half is in fallow (R555). -/
def Half.canRun (x : Half) : Bool :=
  (x.run.state == .running || (x.run.state == .recovering && x.replaying)) && x.run.linkWait.isNone &&
  !x.ckptCopying && x.sys.fallow.isNone

/-! ## Steps -/

/-- One step of the step clock ends, at position `pos` of a sub-schedule or in none (R66, R148). -/
def Half.endStep (x : Half) (pos : Option Nat) : Half :=
  let y := x.lscStep pos
  { y with run := { y.run with steps := y.run.steps + 1 } }

/-- `n` steps in which nothing is computed: stall, idle and boundary steps. -/
def Half.passSteps (x : Half) (n : Nat) : Half :=
  let y := x.lscSteps n
  { y with run := { y.run with steps := y.run.steps + n } }

/-- Put a number into an ascending list without repeats. -/
def insNat (a : Nat) : List Nat → List Nat
  | [] => [a]
  | b :: l => if a < b then a :: b :: l else if a = b then b :: l else b :: insNat a l

/-- The BPs of the half whose word at position `pos` is not all zero or carries an error, ascending. -/
def Half.bpsAt (x : Half) (pos : Nat) : List Nat :=
  let at_ (a : Nat) : Bool := decide (a < 0x80000000) && a % 0x8000 / 8 == pos
  let a := (x.mem.filter (fun (c : Host.Cell) => at_ c.1)).foldl (fun l c => insNat (c.1 / 0x8000) l) []
  (x.ar.ecc.filter (fun (e : Nat × Option Bool) => at_ e.1)).foldl (fun l e => insNat (e.1 / 0x8000) l) a

/-- The tiles of the half whose switch instruction at position `pos` is not all zero or carries an error, ascending. -/
def Half.switchesAt (x : Half) (pos : Nat) : List Nat :=
  let at_ (a : Nat) : Bool := decide (swBase 0 ≤ a) && decide (a < swBase 64) && (a - swBase 0) % 0x200000 / 0x200 == pos
  let a := (x.mem.filter (fun (c : Host.Cell) => at_ c.1)).foldl (fun l c => insNat ((c.1 - swBase 0) / 0x200000) l) []
  (x.ar.ecc.filter (fun (e : Nat × Option Bool) => at_ e.1)).foldl (fun l e => insNat ((e.1 - swBase 0) / 0x200000) l) a

/-- The BPs and switches of a half at one position (R26, R53, R116): every one reads before any of them writes. -/
def Half.execAt (x : Half) (first : Bool) (pos last : Nat) : Half :=
  let t := x.run.steps
  let y := x.bridgeLand t
  let z := (x.bpsAt pos).foldl (fun z g =>
    let p := decodeBp g (x.rdMem (bpWordAddr g pos) 8)
    z.bpStep t first pos p.1 p.2) y
  (x.switchesAt pos).foldl (fun z n => z.switchStep t first pos last n) z

/-- The accesses of design memories that fall into the present step (R221, R222). -/
def Half.memStep (x : Half) : Half := (x.bankStep x.run.steps).bankArrive x.run.steps

/-- One step of a sub-schedule, in every half of the run together. -/
def State.schedStep (s : State) (h : HalfId) (first : Bool) (pos last : Nat) : State :=
  ((s.grp h (fun x => x.execAt first pos last)).crossBridge).grp h (fun x => x.memStep.endStep (some pos))

/-- The first `n` steps of a sub-schedule from `base` to `last` (R29). -/
def State.sched (s : State) (h : HalfId) (base last : Nat) : Nat → State
  | 0 => s
  | n + 1 => (s.sched h base last n).schedStep h (n == 0) (base + n) last

/-- One drain step of a boundary (R30). -/
def State.drainStep (s : State) (h : HalfId) : State :=
  s.grp h (fun x => ((x.bridgeLand x.run.steps).memStep).endStep none)

/-! ## Decision (R175 to R182, R361) -/

/-- The DISPATCH records that a replay still has to obey, earliest first: virtual time and dispatch. -/
def Half.redoDisp (x : Half) : List (DWord × Due) :=
  x.asr.journal.filterMap (fun r => match r.body with
    | .dispatch f vt => if r.redo then some (vt, ⟨r.src, f⟩) else none
    | _ => none)

/-- The dispatches of the earliest virtual time among a list, and that time. -/
def firstDisp (vt : DWord) (l : List (DWord × Due)) : Option (DWord × List Due) :=
  match minNat (l.map (fun p => vtDist vt p.1)) with
  | none => none
  | some t => some (vt + BitVec.ofNat 64 t, (l.filter (fun p => vtDist vt p.1 == t)).map (fun p => p.2))

/-- The tick that the run of `h` decides at step `now` (R177, R182). In replay the recorded dispatches of external edges
come first, at their times (R361). In JOINED the lead half's EXTGAP holds for both halves (log entry 82). -/
def State.tickFor (s : State) (h : HalfId) (now : Nat) : Option Decision :=
  let x := s.half (s.leadOf h)
  let hs := s.heads h
  let mode := x.run.mode
  let ps := hs.flatMap (fun k => (s.half k).pendList mode)
  let ext := hs.flatMap (fun k => extSet now (s.half k).run.ext [])
  match firstDisp x.run.vt (hs.flatMap (fun k => (s.half k).redoDisp)) with
  | some (vt, ds) => decideTick x.run.vt (vtDist x.run.vt vt) ps ds
  | none => decideTick x.run.vt x.extGap ps ext

/-- A decision step (R175). -/
def State.decideAt (s : State) (h : HalfId) : State :=
  let now := (s.half (s.leadOf h)).run.steps
  let s := (s.heads h).foldl (fun t k => t.twins k (fun x => x.admitEdges now)) s
  let d := s.tickFor h now
  s.grp h (fun x => { x with run := { x.run with decided := d, decAt := now } })

/-- DOMEN changed the domains between ticks: the same decision step sees them (R175, R197). -/
def State.redecide (s : State) (h : HalfId) : State :=
  let now := (s.half (s.leadOf h)).run.decAt
  let d := s.tickFor h now
  s.grp h (fun x => { x with run := { x.run with decided := d } })

/-! ## The start of a tick and of a dispatch -/

/-- Trace words of a 64-bit value. -/
def words2 (v : DWord) : List Word := [v.setWidth 32, (v >>> (32 : Nat)).setWidth 32]

/-- External edges of a decided tick are recorded with its time and the cycle of their dispatch (R181, R347); replayed ones
are not recorded again. -/
def Half.noteDisp (x : Half) (d : Decision) : Half :=
  let y := { x with asr := { x.asr with journal := x.asr.journal.map (fun r =>
    match r.body with
    | .dispatch _ vt => if r.redo && vt == d.vt then { r with redo := false } else r
    | _ => r) } }
  if !x.asr.active || x.run.state != .running then y
  else (d.ext.filter (fun e => x.run.mode != .joined || (if e.dom < 128 then x.self == .h0 else x.self == .h1))).foldl
    (fun y e => y.jNote e.dom (x.run.cyc + BitVec.ofNat 64 (d.due.idxOf e)) false (.dispatch e.falling d.vt)) y

/-- A decided tick begins (R167, R174, R176, R181): virtual time moves, its internal edges give way to the next ones, its
external entries leave the queue. -/
def Half.beginTick (x : Half) (d : Decision) : Half :=
  let y := match x.run.idle with
    | some n => if n = 0 then x else x.trace 2 3 [BitVec.ofNat 32 n]
    | none => x
  let z := y.noteDisp d
  let w := { z with run := { z.run with
    vt := d.vt, decided := none, idle := none, stall := none, rest := d.due
    pend := z.run.pend.map (fun (e : Nat × Option PendEdge) => match e.2 with
      | some p => if p.vt == d.vt then (e.1, some (nextEdge (x.desc e.1) p)) else e
      | none => e)
    ext := dropExt z.run.ext d.ext } }
  w.trace 2 0 (words2 d.vt ++ words2 w.run.cyc)

/-- The run of `h` begins a decided tick. -/
def State.beginTick (s : State) (h : HalfId) (d : Decision) : State :=
  s.grp h (fun x => x.beginTick d)

/-- A dispatch begins (R178): it is counted in the half that holds the domain's slot, and traced. -/
def Half.beginDue (x : Half) (d : Due) : Half :=
  let y := match slotOf x.run.mode x.self d.dom with
    | some i => x.count64 (Reg.edgDcntLo i) (Reg.edgDcntHi i) 1
    | none => x
  y.trace 2 1 [BitVec.ofNat 32 (bitNat (x.run.state == .recovering) * 512 + bitNat d.falling * 256 + d.dom)]

/-! ## B0 -/

/-- An engine of the half evaluates at a boundary of domain `dom` (R293, R299). -/
def Half.evalsAt (x : Half) (dom : Nat) : Bool :=
  (List.range 4).any (fun e =>
    let g := x.trg e
    match g.desc with
    | some d => (d.every || d.domain == dom) && (g.st == .pending || g.st == .active)
    | none => false)

/-- The external trigger sample of a boundary (R302); with assured operation active it goes to the journal, in replay none
is taken. -/
def Half.sampleB0 (x : Half) (dom : Nat) : XtSample × Half :=
  if !x.evalsAt dom || x.replaying then (⟨0#8, 0#8, 0#4⟩, x)
  else
    let (v, y) := x.takeSample
    (v, if x.asr.active then y.journal 0 none (.xtSample v) else y)

/-- B0 in one half that acts on the outside: pin and time samples, channels (R411, R443, R507). -/
def Half.inputsB0 (x : Half) (dom : Nat) : Half := (((x.pinB0 dom).ptmB0 dom).chanB0 dom).drainChans

/-- The hold or stop that the halves of the run ask for (R190). -/
def State.asked (s : State) (h : HalfId) : Option HoldReq :=
  match (s.half h).run.req, (if s.paired h then (s.half (otherHalf h)).run.req else none) with
  | some p, some q => some (p.join q)
  | some p, none => some p
  | none, r => r

/-- The counted or timed hold falls on this boundary (R191, R197). -/
def State.holdHere (s : State) (h : HalfId) (last : Bool) : Bool :=
  let x := s.half (s.leadOf h)
  let extOn (y : Half) : Bool := (List.range 128).any (fun d => (y.desc d).en && (y.desc d).ext)
  x.run.holdCyc == some x.run.cyc ||
  (last && (match x.run.holdVt with
    | none => false
    | some wa => match x.run.decided with
      | some d => decide (vtDist x.run.vt wa < vtDist x.run.vt d.vt)
      | none => !s.anyGrp h extOn || decide (vtDist x.run.vt wa < x.extGap)))

/-- Raise the hold condition of the run. -/
def State.raiseHold (s : State) (h : HalfId) (q : HoldReq) : State :=
  s.grp h (fun x => { x with run := { x.run with cond := some q, req := none } })

/-- The external trigger samples that the halves of a run use at a boundary: in PAIRED the lead half's (R324). -/
def State.samplesB0 (s : State) (h : HalfId) (dom : Nat) : State × (HalfId → XtSample) :=
  let (v, x) := (s.half (s.leadOf h)).sampleB0 dom
  let s1 := s.setHalf (s.leadOf h) x
  if s.paired h && (s.half h).run.mode == .joined then
    let (w, y) := (s1.half (otherHalf (s.leadOf h))).sampleB0 dom
    (s1.setHalf (otherHalf (s.leadOf h)) y, fun k => if k = s.leadOf h then v else w)
  else (s1, fun _ => v)

/-! ## Stall conditions and their samples (R31, R158, R184) -/

/-- The stall condition of a half that has the lowest cause (R184), but for a checkpoint that may begin now. -/
def Half.ownCause (x : Half) (dom : Nat) : Option Nat :=
  if x.hbmStall then some 0
  else if x.capStall then some 1
  else if x.plyStall dom then some 2
  else if x.ckptCopying || x.ckptDue then some 3
  else if x.run.cond.isSome || (x.run.hfault && x.asr.active) || x.asr.recur then some 4
  else if x.run.thrReq.isSome && !x.run.linked then some 7
  else none

/-- Change a half's stall point. -/
def Half.setStall (x : Half) (f : StallPoint → StallPoint) : Half := { x with run := { x.run with stall := x.run.stall.map f } }

/-- Note the cause under which the half's next stall steps count (R184). -/
def Half.noteCause (x : Half) (c : Nat) : Half := x.setStall (fun p => { p with cause := c })

/-- The half's latest sample. -/
def Half.sampled (x : Half) : Option Nat := x.run.stall.bind (fun p => p.sample)

/-- The half bridge has fallen in a run of both halves, or the other half takes no part in it any more: until the loss is
classified they hold at their stall point, under cause PARTNER (R367). -/
def State.partnerGone (s : State) (h : HalfId) : Bool :=
  s.paired h && (!(s.half h).rbit Reg.xchBrgStatus 2 || !(s.half (otherHalf h)).inRun)

/-- A half samples its stall conditions, its throttle request and any stop or fault (R31, R158). -/
def Half.takeStall (x : Half) (dom : Nat) (gone : Bool) : Half :=
  let c := x.ownCause dom
  x.setStall (fun p => { p with
    sample := if gone then some (c.getD 5) else c
    lsc := x.lscNat
    thr := x.run.thrReq.isSome
    halt := x.run.linkHalt || x.run.cond.any (fun q => q.stop) || (x.run.hfault && !x.asr.active) })

/-- A set sample in some half of the run. -/
def State.anySample (s : State) (h : HalfId) (p : StallPoint → Bool) : Bool := s.anyGrp h (fun x => x.run.stall.any p)

/-- Where halves or members act together, the halves of the run take their samples; in a linked run the member sends their OR (R158). -/
def State.sampleStall (s : State) (h : HalfId) (dom : Nat) : State :=
  let gone := s.partnerGone h
  let t := if s.paired h || (s.half h).run.linked then s.grp h (fun x => x.takeStall dom gone) else s
  if (s.half h).run.linked then
    let smp : LinkFlags :=
      ⟨t.anySample h (fun p => p.sample.isSome), t.anySample h (fun p => p.thr), t.anySample h (fun p => p.halt)⟩
    t.grp h (fun x => (x.maskBundles x.run.linkCfg).foldl (fun y b => y.setBun b { y.bun b with smp := smp }) x)
  else t

/-- The cause of the stall steps that follow an evaluation (R184): the lowest of what holds in the half now and what its
evaluated sample showed; else 5 where the other half's sample is set, else 6. -/
def Half.stallCause (x : Half) (dom : Nat) (old : Option Nat) (other : Bool) : Nat :=
  match x.ownCause dom, old with
  | some a, some b => min a b
  | some a, none => a
  | none, some b => b
  | none, none => if other then 5 else 6

/-- An evaluation that does not let go: every half notes its cause and samples anew (R31, R158). -/
def State.stallAgain (s : State) (h : HalfId) (dom : Nat) : State :=
  let set (k : HalfId) : Bool := s.paired h && (s.half k).sampled.isSome
  (s.grp h (fun x => x.noteCause (x.stallCause dom (if s.paired h then x.sampled else none) (set (otherHalf x.self))))).sampleStall h dom

/-- B0 of a boundary after the samples of the inputs. In replay no hold is raised: a request waits for REPLAY_END (R360). The
decision falls on the last boundary of the tick (R175); the stall conditions are sampled (R31, R158). -/
def State.boundaryB0 (s : State) (h : HalfId) (d : Due) (last : Bool) : State :=
  let lead := s.leadOf h
  let s := (s.heads h).foldl (fun t k => t.upd k (fun x => x.inputsB0 d.dom)) s
  let s := if (s.half h).run.mode == .paired && s.paired h then s.upd (otherHalf lead) (fun x => x.chanB0 d.dom) else s
  let s := s.sameJournal lead
  let s := if last then s.decideAt h else s
  let s := if (s.half h).replaying then s else
    match s.asked h with
    | some q => s.raiseHold h q
    | none => if s.holdHere h last then s.raiseHold h ⟨0, none, (s.half h).run.cyc, false, false⟩ else s
  (s.grp h (fun x => { x with run := { x.run with
    stall := some ⟨d, 3, none, false, false, 0, 0, 0, 0, x.asr.phase == some .asked⟩ } })).sampleStall h d.dom

/-! ## B7 and B8 -/

/-- End of B7: the design output bits are the outputs of this cycle (R30). -/
def Half.sampleOut (x : Half) : Half :=
  let out := x.ar.dst.filter (fun (e : Nat × DstReg) => decide (0x600 ≤ e.1 % 2048) && decide (e.1 % 2048 < 0x680) && e.2.val)
  { x with ar := { x.ar with dout := out.map (fun e => (e.1 / 2048 * 128 + (e.1 % 2048 - 0x600), true)) } }

/-- The transaction engines of a run at a point of the boundary: in PAIRED the lead half's alone, mirrored (R274). -/
def State.txeStep (s : State) (h : HalfId) (f : Half → Half) : State :=
  (s.heads h).foldl (fun t k => (t.upd k f).txeMirror k) s

/-- B7 of a boundary; pending corrections are written back in it (R91). -/
def State.boundaryB7 (s : State) (h : HalfId) (dom : Nat) : State :=
  let s := s.grp h Half.sampleOut
  (s.txeStep h (fun x => x.txeB7 dom)).grp h (fun x => ((x.chanB7 dom).pinB7 dom).writeBackAll)

/-- Assertion and fault events of the cycle reach the half's sequencer in ascending order (R64, R96, R132, R198). -/
def Half.eventsB8 (x : Half) : Half :=
  let lines := (x.ar.asrt.filter (fun (e : Nat × Bool) => e.2)).map (fun e => e.1)
  let y := lines.foldl (fun y k => y.eventB8 k) x
  let y := if x.ar.bpFault then y.eventB8 256 else y
  let y := if x.ar.xchFault then y.eventB8 257 else y
  { y with ar := { y.ar with bpFault := false, xchFault := false, asrt := [] } }

/-- Events of engines and checkpoints that were waiting for a B8 (R295, R328, R352). -/
def Half.lateB8 (x : Half) : Half :=
  let y := { x with eng := { x.eng with evB8 := [] } }
  (sortKey (fun n => n) x.eng.evB8).foldl (fun y n => y.eventB8 n) y

/-- Trigger and capture engines at B8 (R299, R306), at PTP time `t`, with the external trigger sample `v`. -/
def Half.enginesB8 (x : Half) (dom : Nat) (v : XtSample) (t : PtpTime) : Half :=
  let w : RecAt := ⟨x.run.cyc, x.run.vt, t⟩
  let caps (y : Half) : List Nat := (List.range 4).filter (fun c => match (y.cap c).desc with
    | some d => d.domain == dom
    | none => false)
  let y := (caps x).foldl (fun y c => y.capStart c w) x.samplesB8
  let y := (List.range 4).foldl (fun y e => y.trgEval dom v t e) y
  (caps y).foldl (fun y c => y.capB8 c w) y

/-- The signature of a tile (R365): CRC-32C of its CMP slots in the order of R313, then its 128 design output bits. -/
def Half.tileSig (x : Half) (cmp : List (Nat × Nat)) (n : Nat) : Word :=
  let bits := (cmp.filter (fun p => p.1 / 1024 == n)).map (fun p => x.slotB8 p.1 p.2) ++
    (List.range 128).map (fun i => sget x.ar.dout (n * 128 + i) false)
  let v := (bits.zipIdx).foldl (fun a b => a + bitNat b.1 * 2 ^ b.2) 0
  crc32c (leBytes ((bits.length + 7) / 8) v)

/-- The 64 signatures of a cycle in PAIRED. -/
def Half.formSigs (x : Half) : Half :=
  let cmp := x.attrSlots 2
  { x with asr := { x.asr with sigs := some (x.run.cyc, (List.range 64).map (fun n => x.tileSig cmp n)) } }

/-! ## Recovery and the signature comparison (R33, R360, R365) -/

/-- The half leaves the run for a recovery (R360): REPLAY_END is the last cycle whose boundary passed B9. -/
def Half.intoRecovery (x : Half) (cause : Nat) (rewrite : Bool) : Half :=
  let again := x.asr.replay.isSome
  let y := (x.enter .recovering).asrCause cause
  let y := if again then y
    else y.setReg64 Reg.asrReplayEndLo Reg.asrReplayEndHi (x.run.cyc - 1#64).toNat
  { y with
    run := { y.run with
      hfault := false, cond := none
      req := match y.run.req, y.run.cond with
        | some q, _ => some q
        | none, some q => if q.code = 0 then none else some q
        | none, none => none }
    asr := { y.asr with
      st := .recovering, rewrite := rewrite, replay := none, phase := none, fresh := none
      restoring := some (match y.asr.gens with
        | g :: _ => g.gen
        | [] => 0) } }

/-- A mismatch at cycle `n` (R365), whose tile mask is known: the run recovers; one that recurs at the cycle of its
episode calls for diagnosis (R366); without assured operation the run enters FAULTED. -/
def State.mismatch (s : State) (h : HalfId) (n : DWord) (tiles : Nat) : State :=
  let s := s.grp h (fun x =>
    (((x.setReg64 Reg.asrMismatchLo Reg.asrMismatchHi tiles).setReg64 Reg.asrMismatchCycLo Reg.asrMismatchCycHi n.toNat).asrEvt
      2).asrCause 4)
  let x := s.half h
  if !x.asr.active then s.faultRun h
  else if x.asr.episode = some n then s.grp h (fun x => { x with asr := { x.asr with recur := true } })
  else s.grp h (fun x =>
    let y := x.intoRecovery 4 false
    { y with asr := { y.asr with episode := some n } })

/-- Outputs of cycles up to `n` leave (R33, R274, R409, R444). -/
def Half.releaseOut (x : Half) (n : DWord) : Half :=
  let go (e : DWord × Nat × Bytes × Option Nat) : Bool := decide (e.1.toNat ≤ n.toNat)
  let y := { x with txe := { x.txe with heldOut := x.txe.heldOut.filter (fun e => !go e) }
                    asr := { x.asr with sigs := none } }
  let z := (x.txe.heldOut.filter go).foldl (fun y e => y.hostWrite e.2.1 e.2.2.1 e.2.2.2) y
  (z.flushSlices n.toNat).flushPins n.toNat

/-- The other half of a PAIRED run drops its copy of the host writes that the lead half issues (R274). -/
def Half.dropHeld (x : Half) (n : DWord) : Half :=
  { x with txe := { x.txe with heldOut := x.txe.heldOut.filter (fun e => !decide (e.1.toNat ≤ n.toNat)) } }

/-- The signatures of a cycle are compared (R365). -/
def State.sigCompare (s : State) (h : HalfId) : State :=
  match s.h0.asr.sigs, s.h1.asr.sigs with
  | some (n, a), some (_, b) =>
    let tiles := ((a.zip b).zipIdx).foldl (fun m p => m + bitNat (p.1.1 != p.1.2) * 2 ^ p.2) 0
    if tiles = 0 then
      s.grp h (fun x =>
        let y := (if x.run.lead then x else x.dropHeld n).releaseOut n
        if y.asr.episode = some n then
          ({ y with asr := { y.asr with episode := none } }).countFld Reg.asrStatus 0 16 1
        else y)
    else (s.grp h (fun x => { x with asr := { x.asr with sigs := none } })).mismatch h n tiles
  | _, _ => s

/-- B8 of a boundary, with the external trigger sample of each half. -/
def State.boundaryB8 (s : State) (h : HalfId) (dom : Nat) (v : HalfId → XtSample) : State :=
  let pair := s.paired h && (s.half h).run.mode == .paired
  let s := if pair then s.sigCompare h else s
  let t := (s.half (s.leadOf h)).phc
  let s := s.grp h (fun x => ((x.eventsB8).enginesB8 dom (v x.self) (if pair then t else x.phc)).lateB8)
  let s := if pair then s.grp h Half.formSigs else s
  s.settle

/-! ## The stall point (R31, R184, R189, R352) -/

/-- Count `n` stall steps under a cause (R184). -/
def Half.stallSteps (x : Half) (c n : Nat) : Half :=
  let y := (x.count64 (Reg.edgStallLo c) (Reg.edgStallHi c) n).passSteps n
  y.setStall (fun p => { p with
    steps := p.steps + n, mask := if n = 0 ∨ natBit p.mask c then p.mask else p.mask + 2 ^ c })

/-- Look at the stall conditions (R31): `true` when the stall point lets go. A half fault without assured operation stops
the run, a hold condition holds it, a checkpoint that was asked for begins once nothing else stalls (R352). Two halves that
run together go by their samples of B0, and then of 8 steps earlier each time; a fault that assured operation recovers takes
effect at the stall point itself (R238, R360). A linked run waits for its evaluation (R158). -/
def State.stallLook (s : State) (h : HalfId) (dom : Nat) : Bool × State :=
  let linked := (s.half h).run.linked
  if s.anyGrp h (fun x => x.run.hfault && !x.asr.active) then (false, s.faultRun h)
  else
    let hold := match (s.half h).run.cond with
      | some q => if (s.half h).run.state == RunState.running && !(linked && q.stop) then some q else none
      | none => none
    match hold with
    | some q => (false, (if linked then s else s.stallAgain h dom).holdRun h q)
    | none =>
      if linked then (false, s)
      else if s.partnerGone h || s.anyGrp h (fun x => x.run.cond.isSome || x.run.hfault || x.asr.recur) ||
          (if s.paired h then s.anySample h (fun p => p.sample.isSome) else s.anyGrp h (fun x => (x.ownCause dom).isSome)) then
        (false, s.stallAgain h dom)
      else if s.anyGrp h (fun x => x.run.stall.any (fun p => p.ckpt) && x.asr.phase == some .asked) then
        (false, (s.grp h (fun x => x.beginCkpt.noteCause 3)).sampleStall h dom)
      else (true, s)

/-! ## Input commit and the end of the boundary -/

/-- B9 to B12 in one half that acts on the outside: accepted inputs enter (R32, R343, R361). -/
def State.inputsB9 (s : State) (h : HalfId) (dom : Nat) : State :=
  let x := s.half h
  if x.replaying then s.replayDue h JRec.atB9
  else if x.asr.active then ((s.applyDue h dom JRec.atB9).sameJournal h).mirrorAsr h
  else ((s.chanB9 h dom).pinB9 h).ptmB9 h

/-- The playback engines of a domain commit (R328). -/
def Half.playB9 (x : Half) (dom : Nat) : Half :=
  (List.range 4).foldl (fun y p => match (y.ply p).desc with
    | some d => if d.domain = dom then y.plyCommit p else y
    | none => y) x

/-- The ports of a half commit their input bits; in PAIRED the other half commits the lead half's values (R254, R274). -/
def State.portsB9 (s : State) (h : HalfId) (dom : Nat) : State :=
  (s.heads h).foldl (fun t k =>
    let (bits, y) := (t.half k).txeB9 dom
    let t := (t.setHalf k y).txeMirror k
    if t.paired h && y.run.mode == .paired then t.upd (otherHalf k) (fun z => z.setDin bits) else t) s

/-- B13 (R30): the cycle counter counts, waits of the domain count (R270), trigger lines and assertion events end. -/
def Half.cycleEnd (x : Half) (dom : Nat) : Half :=
  let y := x.txeB13 dom
  { y with run := { y.run with cyc := y.run.cyc + 1#64 }, ar := { y.ar with trig := [], asrt := [] } }

/-- B13 (R194): the lead half's sequencer is copied to the other half of a lockstep pair. -/
def State.copySeq (s : State) (h : HalfId) : State :=
  if s.paired h && (s.half h).run.mode == .paired then
    let q := (s.half (s.leadOf h)).seq
    s.upd (otherHalf (s.leadOf h)) (fun x => { x with seqCopy := q })
  else s

/-- Run-control actions of the halves of a run whose boundary this is, or which a replay repeats here, take effect at the
stall point (R293, R342, R343, R361). -/
def State.controlsAt (s : State) (h : HalfId) (dom : Nat) : State :=
  (s.heads h).foldl (fun t k =>
    let x := t.half k
    if x.replaying then t.replayDue k (fun r => r.isControl && !r.idle)
    else if x.asr.active then ((t.applyDue k dom JRec.isControl).sameJournal k).mirrorAsr k
    else t) s

/-- Look at the stall point: where it lets go the actions of the boundary take effect, and a playback engine that they
started may still lack its vector (R31, R328). -/
def State.letGo (s : State) (h : HalfId) (dom : Nat) : Bool × State :=
  let (ok, t) := s.stallLook h dom
  if !ok then (false, t)
  else
    let u := t.controlsAt h dom
    if u.anyGrp h (fun x => x.plyStall dom) then (false, u.stallAgain h dom) else (true, u)

/-- From B8 to B15: the stall steps are traced (R533), the inputs commit, the cycle ends. -/
def State.passStall (s : State) (h : HalfId) : State :=
  match (s.half h).run.stall with
  | none => s
  | some p =>
    let dom := p.cur.dom
    let s := s.grp h (fun x =>
      let y := match x.run.stall with
        | some p => if p.steps = 0 then x else x.trace 2 2 [BitVec.ofNat 32 p.steps, BitVec.ofNat 32 p.mask]
        | none => x
      let y := ((y.traceEval.passSteps 1).hbmLand).playB9 dom
      { y with txe := { y.txe with inB := true } })
    let s := (s.heads h).foldl (fun t k => t.inputsB9 k dom) s
    -- a domain that a replayed record switches bears on the tick decided at this boundary (R197, R361)
    let s := if (s.half h).replaying && (s.half h).run.rest.isEmpty then s.redecide h else s
    let s := s.grp h (fun x => x.chanStrobe dom)
    let s := (s.portsB9 h dom).copySeq h
    (s.grp h (fun x =>
      let y := (x.cycleEnd dom).passSteps 7
      { y with run := { y.run with stall := none } })).settle

/-! ## The tick -/

/-- One dispatch up to the stall point of its boundary (R29, R30). -/
def State.dispatchTo (s : State) (h : HalfId) (d : Due) (ds : List Due) : State :=
  let s := s.grp h (fun x => ({ x with run := { x.run with rest := ds } } : Half).beginDue d)
  let (base, len) := match s.domDesc h (s.half h).run.mode d.dom with
    | some e => if d.falling then (e.fbase, e.flen) else (e.rbase, e.rlen)
    | none => (0, 0)
  let s := s.sched h base (base + len - 1) len
  let (s, v) := s.samplesB0 h d.dom
  let s := s.boundaryB0 h d ds.isEmpty
  let s := Nat.repeat (fun t => t.drainStep h) 8 s
  (s.boundaryB7 h d.dom).boundaryB8 h d.dom v

/-- The dispatches of a tick in order, as far as the stall points and the run state let them go. -/
def State.runDues (s : State) (h : HalfId) : List Due → State
  | [] => s.grp h (fun x => { x with run := { x.run with
      rest := [], idle := if x.run.decided.isNone && x.run.idle.isNone then some 0 else x.run.idle } })
  | d :: ds =>
    if !(s.half h).canRun then s.grp h (fun x => { x with run := { x.run with rest := d :: ds } })
    else
      let t := s.dispatchTo h d ds
      let (ok, t) := t.letGo h d.dom
      if ok then (t.passStall h).runDues h ds else t

/-- The dispatches that the present tick still owes. -/
def State.goOn (s : State) (h : HalfId) : State := s.runDues h (s.half h).run.rest

/-- The whole of the next tick, or what is left of the present one (R175, R176). -/
def State.tick (s : State) (h : HalfId) : State :=
  let x := s.half h
  if !x.canRun || x.run.stall.isSome then s
  else if !x.run.rest.isEmpty then s.goOn h
  else
    match x.run.decided with
    | some d => let t := s.beginTick h d
                t.runDues h d.due
    | none => s

/-- TICK (R175, R176): in JOINED and PAIRED of both halves. -/
def execTick (h : HalfId) (s : State) : Host.Outcome State Fault Refusal := .next ((s.tick h).settle)

/-- Look at the stall point again and go on with the tick where it lets go. -/
def State.tryPass (s : State) (h : HalfId) : State :=
  match (s.half h).run.stall with
  | none => s
  | some p =>
    let (ok, t) := s.letGo h p.cur.dom
    if ok then (t.passStall h).goOn h else t

/-- STALL_POINT_RELEASE (R31, R184): the stall steps since the conditions were last looked at, `n` of them in SPLIT, 8
where two halves work together, whose stall lasts a multiple of 8; then the conditions are looked at again. -/
def execStallPointRelease (h : HalfId) (n : Nat) (s : State) : Host.Outcome State Fault Refusal :=
  let x := s.half h
  .next (if !(x.run.state == .running || (x.run.state == .recovering && x.replaying))
        || x.run.linked || x.sys.fallow.isSome then s
    else match x.run.stall with
      | none => s
      | some p =>
        let k := if s.paired h then 8 - p.steps % 8 else n
        ((s.grp h (fun y => y.stallSteps ((y.run.stall.map (fun p => p.cause)).getD 5) k)).tryPass h).settle)

/-- Every half of the run changes its step clock (R159, R185, R198): event 279, and the PWR event of the change. -/
def Half.switchClock (x : Half) (on : Bool) : Half :=
  let y := { x with run := { x.run with throttled := on, thrReq := none } }
  (y.pwrEvent Reg.pwrEvt (if on then 3 else 4)).event 279

/-- IDLE_DECISION (R175, R182, R183, R190): eight idle steps pass and the next tick is decided anew; a hold or stop that
was asked for takes effect between ticks. -/
def execIdleDecision (h : HalfId) (s : State) : Host.Outcome State Fault Refusal :=
  let x := s.half h
  .next (match x.run.idle with
    | none => s
    | some _ =>
      if !x.canRun || x.run.stall.isSome || x.run.decided.isSome then s
      else
        let t := s.grp h (fun y =>
          let z := (y.count64 Reg.edgIdleLo Reg.edgIdleHi 8).passSteps 8
          { z with run := { z.run with idle := z.run.idle.map (fun n => n + 8) } })
        match (if x.replaying then none else t.asked h) with
        | some q => ((t.raiseHold h q).holdRun h q).settle
        | none =>
          -- actions taken between ticks are repeated there (R361)
          let t := if x.replaying then (t.heads h).foldl (fun t k => t.replayDue k (fun r => r.isControl && r.idle)) t else t
          let t := t.decideAt h
          let x := t.half h
          -- a timed hold whose time no tick can reach any more (R197)
          if !x.replaying && t.holdHere h true && x.run.holdCyc != some x.run.cyc then
            let q : HoldReq := ⟨0, none, x.run.cyc, false, false⟩
            ((t.raiseHold h q).holdRun h q).settle
          else t)

/-- A linked start that waits is cancelled: the run goes back to the state it was in, and a waiting RUNC or RUNT ends with
REFUSED_LINK. -/
def State.cancelLink (s : State) (h : HalfId) : State :=
  s.grp h (fun x => match x.run.linkWait with
    | some st => (({ x with run := { x.run with linkWait := none, linked := false, linkSend := none } } : Half).enter st).endRunWait 5 none
    | none => x)

/-! ## External edges (R179 to R181, R344, R414) -/

/-- The port refuses an event (R180, R414). -/
def State.edgeRefused (s : State) (h : HalfId) (d : Due) : Bool :=
  let x := s.half h
  !(match slotOf x.imgMode h d.dom with
    | some i => (x.desc i).en && (x.desc i).ext && (!d.falling || (x.desc i).fall)
    | none => false) || !x.fabLead

/-- The order of events taken in one fabric cycle (R180): ascending domain, rising before falling. -/
def Due.before (a b : Due) : Bool := decide (a.dom < b.dom) || (a.dom == b.dom && !a.falling && b.falling)

/-- Put an event among those of its fabric cycle. -/
def putDue (d : Due) : List Due → List Due
  | [] => [d]
  | e :: l => if d.before e then d :: e :: l else e :: putDue d l

/-- READY of the edge port (R414): at least four free entries, as the present fabric cycle found them. An event belongs to
the fabric cycle of the one before it if no time has passed since and that cycle has taken fewer than four (log entry 84). -/
def Half.edgeCycle (x : Half) : Option EdgeCycle :=
  match x.run.edges with
  | some c =>
    if c.ctl = x.ctl ∧ c.steps = x.run.steps ∧ c.taken < 4 then some c
    else if x.extDepth ≤ 60 then some ⟨x.ctl, x.run.steps, 0, 0⟩ else none
  | none => if x.extDepth ≤ 60 then some ⟨x.ctl, x.run.steps, 0, 0⟩ else none

/-- An event of a fabric cycle enters the external-edge queue, ordered among those of its cycle (R180, R344). -/
def Half.queueEdge (x : Half) (d : Due) (c : EdgeCycle) : Half :=
  let n := x.run.ext.length - c.queued
  let now := putDue d ((x.run.ext.drop n).map (fun e => e.due))
  { x with run := { x.run with ext := x.run.ext.take n ++ now.map (fun e => ⟨e, x.run.steps, none⟩) } }

/-- The event of an EXT_EDGE record that awaits confirmation. -/
def JRec.edge (r : JRec) : Option Due := match r.body with
  | .extEdge f => if r.conf then none else some ⟨r.src, f⟩
  | _ => none

/-- Give the records that await confirmation the events of a list, in order; with the events left over. -/
def reEdge : List Due → List JRec → List Due × List JRec
  | es, [] => (es, [])
  | [], l => ([], l)
  | e :: es, r :: l =>
    match r.edge with
    | some _ => let (m, k) := reEdge es l
                (m, { r with src := e.dom, body := .extEdge e.falling } :: k)
    | none => let (m, k) := reEdge (e :: es) l
              (m, r :: k)

/-- An event of a fabric cycle is journalled, the records of the cycle in the order of R180. -/
def Half.journalEdge (x : Half) (d : Due) (c : EdgeCycle) : Half :=
  let y := x.journal d.dom none (.extEdge d.falling)
  let edges (l : List JRec) : List JRec := l.filter (fun r => r.edge.isSome)
  let all := edges y.asr.journal ++ edges y.asr.waiting
  let n := all.length - (c.queued + 1)
  let order := (all.take n).filterMap JRec.edge ++ ((all.drop n).filterMap JRec.edge).foldl (fun l e => putDue e l) []
  let (rest, js) := reEdge order y.asr.journal
  { y with asr := { y.asr with journal := js, waiting := (reEdge rest y.asr.waiting).2 } }

/-- EXT_EDGE_EVENT (R179, R180, R344): an edge that the fabric presents while READY is 1; else it keeps the edge. -/
def execExtEdgeEvent (h : HalfId) (dom : BitVec 8) (falling : Bool) (s : State) : Host.Outcome State Fault Refusal :=
  let x := s.half h
  let d : Due := ⟨dom.toNat, falling⟩
  .next (if x.fab.live = 0 || x.run.state == .recovering then s
    else match x.edgeCycle with
      | none => s
      | some c =>
        let took (n : Nat) (y : Half) : Half :=
          { y with run := { y.run with edges := some { c with taken := c.taken + 1, queued := c.queued + n } } }
        if s.edgeRefused h d then (s.upd h (fun y => took 0 ((y.countFld Reg.edgExtref 0 32 1).event 275))).settle
        else if x.asr.active then (s.upd h (fun y => took 1 (y.journalEdge d c))).sameJournal h
        else s.twins h (fun y => took 1 (y.queueEdge d c)))

/-! ## Releases and the step clock -/

/-- OUT_HOLD_RELEASE (R411): a hold that channels alone raised ends by itself once they have room. -/
def execOutHoldRelease (h : HalfId) (s : State) : Host.Outcome State Fault Refusal :=
  let x := s.half h
  .next (if x.run.state == .held && x.run.cond.any (fun q => q.auto) &&
      !s.anyGrp h (fun y => y.run.req.isSome) && !s.anyGrp h (fun y => !y.chansEased) then
      s.grp h (fun y =>
        ({ y with run := { y.run with cond := none }, fab := { y.fab with full := [] } } : Half).enter .running)
    else s)

/-- THROTTLE_SWITCH (R185): the step clock changes after 64 stall steps at the stall point where the request is taken,
which then lets go if nothing else holds it, or at once where no run moves. -/
def execThrottleSwitch (h : HalfId) (s : State) : Host.Outcome State Fault Refusal :=
  let ask (y : Half) : Bool := y.run.thrReq.isSome
  let v := ((s.half h).run.thrReq).getD (((s.half (otherHalf h)).run.thrReq).getD false)
  let x := s.half h
  let moves := x.run.state == .running || (x.run.state == .recovering && x.replaying)
  .next (if !s.anyGrp h ask || x.run.linked then s
    else if x.run.stall.isSome then
      let t := s.grp h (fun y => (y.stallSteps 7 64).switchClock v)
      let dom := (x.run.stall.map (fun p => p.cur.dom)).getD 0
      (if moves then (t.sampleStall h dom).tryPass h else t).settle
    else if moves then s
    else (s.grp h (fun y => y.switchClock v)).settle)

end Sys2Proof.Machine
end

