-- ==== Sys2Proof/Machine/Start.lean ====
section
/-!
DEFINITION. Machine/Start.lean: run starts and releases (R154, R155, R187 to R191, R197, R350), `SEQ_CTRL`, `SEQ_FAULT`,
`SEQ_TIMER` and the domain descriptors.
-/

namespace Sys2Proof.Machine

/-! ## Conditions of a run start (R187) -/

/-- A linked run of the halves `own` may start (R154): every bundle of BMASK is ACTIVE with one F and its configured E, BMASK
names only bundles of the member (R164), the other half in SPLIT is no second lead of the group, and no domain is externally
paced. -/
def State.linkReady (s : State) (h : HalfId) (own : List HalfId) : Bool :=
  let cfg := s.runcfg h
  let buns := own.flatMap (fun k => ((s.half k).maskBundles cfg).map (fun b => (s.half k).bun b))
  let f := match buns with
    | u :: _ => u.frozen
    | [] => 0
  let lead (k : HalfId) : Bool := (s.half k).rbit Reg.lnkTmRuncfg 0 && (s.half k).rbit Reg.lnkTmRuncfg 1
  let two := !s.oneCount h && lead .h0 && lead .h1 && s.h0.reg Reg.lnkTmDigest == s.h1.reg Reg.lnkTmDigest
  buns.all (fun u => u.st == .active && u.frozen == f && u.effE == u.e) && !two &&
  [HalfId.h0, HalfId.h1].all (fun k => own.contains k || ((s.half k).maskBundles cfg).isEmpty) &&
  own.all (fun k => (List.range 128).all (fun d => !((s.half k).desc d).en || !((s.half k).desc d).ext))

/-- The descriptors of the halves `own` suit a fresh start (R172, R174): every enabled one is valid and, with EXT = 0, begins
within 2^48 ps of START_VT; at least one is enabled. -/
def State.descsReady (s : State) (h : HalfId) (own : List HalfId) : Bool :=
  let on := own.flatMap (fun k => ((List.range 128).map (fun d => (s.half k).desc d)).filter (fun d => d.en))
  let vt := (s.half h).run.startVt
  !on.isEmpty && on.all (fun d => d.valid && (d.ext || decide (vtDist vt (BitVec.ofNat 64 d.first) < 2 ^ 48)))

/-- The value of `SEQ_RUNCFG`.MODE that names a mode (R206). -/
def Mode.runcfg : Mode → Nat
  | .joined => 0
  | .paired => 1
  | .split => 2

/-- The refusal of a run start, if any (R161, R187, R242, R588). Every half that is to run holds an image for the same mode
(R110). -/
def State.startRefusal (s : State) (h : HalfId) : Option Nat :=
  let x := s.half h
  let resume := x.rbit Reg.seqRuncfg 2
  match x.run.loaded with
  | none => some 2
  | some m =>
    let own := s.runHalves h m
    if own.any (fun k => (s.half k).run.loaded != some m || (s.half k).run.state == .unloaded) then some 2
    else if own.any (fun k => (s.half k).marchBusy || !(s.half k).permitted || (s.half k).sys.load.isSome)
        || (s.joint m && !x.run.lead) || x.run.state == .recovering then some 1
    else if resume && (x.run.state != .stopped || x.run.linkEnd) then some 1
    else if x.rfld Reg.seqRuncfg 0 2 ≠ m.runcfg then some 3
    else if m != .split && !(x.rbit Reg.xchBrgStatus 2 && s.refSame) then some 4
    else if wbit (s.runcfg h) 0 && !s.linkReady h own then some 5
    else if !resume && !s.descsReady h own then some 6
    else none

/-! ## The start itself (R188, R341, R350) -/

/-- The sorted delay list of a fresh start (R174): rising edge 0 of each enabled domain with EXT = 0. -/
def Half.freshPend (x : Half) : SMap (Option PendEdge) :=
  (List.range 128).filterMap (fun d =>
    let e := x.desc d
    if e.en && !e.ext then some (d, some ⟨BitVec.ofNat 64 e.first, false⟩) else none)

/-- What a fresh start makes of a half (R178, R184, R188, R296, R341, R375). -/
def Half.freshStart (x : Half) (steps : Nat) (t : PtpTime) : Half :=
  let y := x.abortAll t
  let y := (List.range 8).foldl (fun y c => y.setReg64 (Reg.edgStallLo c) (Reg.edgStallHi c) 0) y
  let y := (List.range 128).foldl (fun y d => y.setReg64 (Reg.edgDcntLo d) (Reg.edgDcntHi d) 0) y
  let y := ((y.setReg64 Reg.edgIdleLo Reg.edgIdleHi 0).setReg Reg.edgExtref 0#32).setRFld Reg.asrStatus 0 16 0
  let on := y.rbit Reg.asrCtrl 0 && y.run.assured
  let z := { y with
    ar := { y.ar with unsrvd := [], trig := [], asrt := [], bpFault := false, xchFault := false }
    fab := { y.fab with full := [] }
    run := { y.run with
      vt := y.run.startVt, pend := y.freshPend, ext := [], stall := none, rest := [], decided := none, idle := none
      req := none, cond := none, holdCyc := none, holdVt := none, hfault := false, steps := steps, linkHalt := false
      linkEnd := false }
    asr := { y.asr with
      landed := false, st := if on then .starting else .off, active := on, gens := [], journal := [], jseq := 0, jpos := 0
      waiting := [], gates := [], patBad := [], patAgain := false, phase := none, fresh := none
      deliv := [], replay := none, episode := none, rewrite := false, recur := false, restoring := none, ckptCyc := none
      sigs := none } }
  if on then z.beginCkpt else z

/-- What a resumed start makes of a half (R188, R341, R363): an activity that was in force goes on. -/
def Half.resumeStart (x : Half) (steps : Nat) : Half :=
  let on := x.asr.st == .suspended && x.rbit Reg.asrCtrl 0
  { x with
    run := { x.run with steps := steps, req := none, cond := none, linkHalt := false }
    ar := { x.ar with unsrvd := [] }
    asr := { x.asr with landed := false, active := on, st := if on then (if x.asr.replay.isSome then .recovering else .active) else x.asr.st } }

/-- The run begins (R5, R187, R188): a linked one waits for START_LSC, and its lead sends START (R155). -/
def State.beginRun (s : State) (h : HalfId) : State :=
  let x := s.half h
  let s := s.takeMode h
  let prev := x.run.state
  let steps := (s.members h).foldl (fun m k => max m (s.half k).run.steps) 0
  let s := if x.rbit Reg.seqRuncfg 2 then s.grp h (fun y => y.resumeStart steps) else s.grp h (fun y => y.freshStart steps (s.recTime y.self))
  let cfg := s.runcfg h
  let linked := wbit cfg 0
  let s := s.grp h (fun y =>
    ({ y with run := { y.run with
      lsc := x.run.lsc, linked := linked, linkCfg := cfg, linkWait := if linked then some prev else none
      linkSend := if linked then y.run.linkStart.map sendFrom else none } } : Half).enter
      (if y.asr.st == .recovering then .recovering else .running))
  let s := if (s.half h).run.decided.isNone && (s.half h).run.rest.isEmpty then s.decideAt h else s
  let s := s.grp h (fun y => { y with run := { y.run with
    idle := if y.run.decided.isNone && y.run.rest.isEmpty && y.run.stall.isNone then some 0 else none } })
  if linked && wbit cfg 1 then
    let start := (x.run.lsc.toNat + 4096) % 2 ^ 48
    let f := ((s.members h).flatMap (fun k => ((s.half k).maskBundles cfg).map (fun b => ((s.half k).bun b).frozen))).headD 0
    let g := s.govern h
    (s.member h (fun y => { y with run := { y.run with linkStart := some start, linkSend := some (sendFrom start) } })).sendMask cfg 4
      (start + ((s.half g).reg Reg.lnkTmDigest).toNat * 2 ^ 48 + f * 2 ^ 80)
  else s

/-- A run start (R187): its status code, and the machine after it. -/
def State.runStart (s : State) (h : HalfId) : Nat × State :=
  match s.startRefusal h with
  | some c => (c, s)
  | none => (0, s.beginRun h)

/-- A release from HELD (R189). -/
def State.release (s : State) (h : HalfId) : State :=
  s.grp h (fun x =>
    ({ x with run := { x.run with cond := none, idle := if x.run.decided.isNone && x.run.rest.isEmpty && x.run.stall.isNone
                                                        then some 0 else x.run.idle }
              fab := { x.fab with full := [] } } : Half).enter .running)

/-- A run start, or a release in HELD (R197): no effect in RUNNING. -/
def State.goRun (s : State) (h : HalfId) : Nat × State :=
  match (s.half h).run.state with
  | .held => (0, s.release h)
  | .running => (0, s)
  | _ => s.runStart h

/-- The first cycle whose sub-schedule has not begun (R197). -/
def Half.nextCyc (x : Half) : DWord := if x.run.stall.isSome then x.run.cyc + 1#64 else x.run.cyc

/-- A tick with a virtual time at or before `wa` remains (R197). -/
def State.ticksUpTo (s : State) (h : HalfId) (wa : DWord) : Bool :=
  let x := s.half h
  let upTo (v : DWord) : Bool := decide (vtDist v wa < 2 ^ 63)
  let extOn (y : Half) : Bool := (List.range 128).any (fun d => (y.desc d).en && (y.desc d).ext)
  (!x.run.rest.isEmpty && upTo x.run.vt) ||
  (match x.run.decided with
    | some d => upTo d.vt
    | none => s.anyGrp h extOn && upTo (x.run.vt + BitVec.ofNat 64 x.extGap))

/-! ## `SEQ_CTRL` (R190, R191, R204) -/

/-- The sequencer of the half executes (R194): the half leads, and is not in fallow (R555). -/
def State.seqRuns (s : State) (h : HalfId) : Bool :=
  s.leads h && (s.half h).sys.fallow.isNone

/-- The run of `h` takes a hold or stop request (R190). -/
def Half.askHold (x : Half) (code : Nat) (stop : Bool) : Half :=
  x.request code none stop

/-- The sequencer is halted (R204): a blocking instruction ends with HALTED. -/
def Half.haltSeq (x : Half) : Half :=
  let fin (wd : BitVec 5) : Half :=
    let y := (((x.traceCtl x.seq.wait.op (statusWord 0x0F 0)).setW wd (statusWord 0x0F 0)).advPc)
    { y with seq := { y.seq with exec := .halted, wait := .none } }
  match x.seq.exec, x.seq.wait with
  | .exec, _ => { x with seq := { x.seq with exec := .halted } }
  | .wait, .run wd _ => fin wd
  | .wait, .hold wd => fin wd
  | .wait, .stop wd => fin wd
  | .wait, .waite wd _ => fin wd
  | .wait, .restore wd => fin wd
  | .wait, .fallow wd => fin wd
  | .wait, .ckpt wd => fin wd
  | .wait, .arm wd => (fin wd).seqForgets
  | .wait, .abrt wd => (fin wd).seqForgets
  | _, _ => x

/-- Execution starts at PC while HALTED (R204, R215). -/
def State.startSeq (s : State) (h : HalfId) : State :=
  let x := s.half h
  if s.seqRuns h && x.seq.exec == .halted then
    (s.upd h (fun y =>
      (({ y with seq := { y.seq with exec := .exec } } : Half).trace 1 0 [BitVec.ofNat 32 y.seq.pc.toNat]).fetched)).settle
  else s

/-- A write of `SEQ_CTRL`: its bits act in the order HALT, EXEC, HOLD_REQ, STOP_REQ, RELEASE_REQ, DOORBELL. -/
def State.seqCtrlWrite (s : State) (h : HalfId) (v : Word) : State :=
  let s := if wbit v 1 then s.upd h Half.haltSeq else s
  let s := if wbit v 0 then s.startSeq h else s
  let s := if wbit v 4 then s.upd h (fun x => x.askHold 8 false) else s
  let s := if wbit v 6 then s.upd h (fun x => x.askHold 9 true) else s
  let s := s.settle
  let s := if wbit v 5 && (s.half h).run.state == .held then s.release h else s
  if wbit v 7 then (s.upd h (fun x => x.event 272)).settle else s

/-- DOORBELL (R198, R204): event 272. -/
def execDoorbell (h : HalfId) (m : Master) (s : State) : Host.Outcome State Fault Refusal :=
  .next (s.byMaster h m (fun s => s.seqCtrlWrite h 0x80#32))

/-- STOP_REQ (R190, R191). -/
def execStopReq (h : HalfId) (m : Master) (s : State) : Host.Outcome State Fault Refusal :=
  .next (s.byMaster h m (fun s => s.seqCtrlWrite h 0x40#32))

/-- RELEASE_REQ (R189). -/
def execReleaseReq (h : HalfId) (m : Master) (s : State) : Host.Outcome State Fault Refusal :=
  .next (s.byMaster h m (fun s => s.seqCtrlWrite h 0x20#32))

/-- HOLD_REQ (R190). -/
def execHoldReq (h : HalfId) (m : Master) (s : State) : Host.Outcome State Fault Refusal :=
  .next (s.byMaster h m (fun s => s.seqCtrlWrite h 0x10#32))

/-- SEQ_CTRL_HALT (R193, R204). -/
def execSeqCtrlHalt (h : HalfId) (m : Master) (s : State) : Host.Outcome State Fault Refusal :=
  .next (s.byMaster h m (fun s => s.seqCtrlWrite h 2#32))

/-- EXEC (R193, R194, R204, R215). -/
def execSeqExec (h : HalfId) (m : Master) (s : State) : Host.Outcome State Fault Refusal :=
  .next (s.byMaster h m (fun s => s.seqCtrlWrite h 1#32))

/-! ## `SEQ_FAULT`, `SEQ_TIMER` and the descriptors (R207, R211, R214) -/

/-- A write of `SEQ_FAULT`: FAULT cleared, the sequencer HALTED at the faulting instruction (R193, R207).
After an image load the sequencer is HALTED already, and its PC stays at ENTRY (log entry 83). -/
def Half.seqFaultClear (x : Half) (v : Word) : Half :=
  if wbit v 0 && x.rbit Reg.seqFault 0 then
    let y := x.setReg Reg.seqFault 0#32
    { y with seq := { y.seq with exec := if y.seq.exec == .fault then .halted else y.seq.exec } }
  else x

/-- SEQ_FAULT_CLEAR (R193, R207). -/
def execSeqFaultClear (h : HalfId) (m : Master) (v : Word) (s : State) : Host.Outcome State Fault Refusal :=
  .next (s.byMaster h m (fun s => s.upd h (fun x => x.seqFaultClear v)))

/-- SEQ_TIMER_EXPIRY (R198, R211): the count reaches 0 and raises event 280. -/
def execSeqTimerExpiry (h : HalfId) (s : State) : Host.Outcome State Fault Refusal :=
  .next (if (s.half h).reg Reg.seqTimer = 0#32 then s
    else (s.upd h (fun x => (x.setReg Reg.seqTimer 0#32).event 280)).settle)

/-- A write of a word of `EDG_DESC_d` (R16, R170, R171, R214): an error while a run is in progress; the DOMAIN byte keeps the
slot's number and the reserved byte reads 0. -/
def Half.edgDescWrite (x : Half) (m : Master) (slot word : Nat) (v : Word) : Half :=
  if x.inRun then x.writeErr m 2#2
  else x.setReg (Reg.edgDesc slot word)
    (if word = 5 then setFld (setFld v 24 8 0) 16 8 (fld (x.reg (Reg.edgDesc slot 5)) 16 8) else v)

/-- EDG_DESC_WRITE (R214). -/
def execEdgDescWrite (h : HalfId) (m : Master) (slot : BitVec 7) (word : BitVec 3) (v : Word) (s : State) :
    Host.Outcome State Fault Refusal :=
  .next (s.byMaster h m (fun s => s.upd h (fun x => x.edgDescWrite m slot.toNat word.toNat v)))

end Sys2Proof.Machine
end

