-- ==== Sys2Proof/Machine/TxeCmds.lean ====
section
/-!
DEFINITION. Machine/TxeCmds.lean: the commands of the transaction engine (R259 to R287, R342, R358, R415, R480).
-/

namespace Sys2Proof.Machine

/-! ## SQ entries -/

/-- SQ_DOORBELL (R260): a write of `TXE_SQ_TAIL_q`. -/
def execSqDoorbell (h : HalfId) (m : Master) (q : BitVec 6) (tail : Word) (s : State) : Host.Outcome State Fault Refusal :=
  .next (s.byMaster h m (fun s => s.txe h (fun x => x.ring q.toNat (fld tail 0 16))))

/-- The position in the SQ of the next entry to fetch. -/
def Half.fetchPos (x : Half) (q : Nat) : Nat :=
  (x.rfld (Reg.txeSqStat q) 16 16 + x.sqStaged q) % max 1 (x.rfld (Reg.txeSqCfg q) 0 16)

/-- What the engine is delivered of a bound queue pair's ring and buffers (R238, R405, R415): 0 outside the fabric's reach. -/
def Half.boundRead (x : Half) (a n : Nat) : Bytes × Half :=
  if x.fabReach a n then x.devRead .afb a n else (zeros n, x)

/-- The 64 bytes of the next entry: of a ring in host memory what the read returns, of a bound queue pair what SP7 holds
(R415). -/
def Half.entryBytes (x : Half) (q : Nat) (e : Bytes) : Bytes × Half :=
  if x.qBound q then x.boundRead (spAddr 7 + x.rfld (Reg.txeSqBaseLo q) 12 20 * 4096 + x.fetchPos q * 64) 64
  else (e, x)

/-- The engine may read host memory for queue `q` (R479, R556): a bound queue pair needs no endpoint. -/
def Half.canFetch (x : Half) (q : Nat) : Bool :=
  x.qBound q || (!x.pci.down && x.rbit Reg.pciStatus 3 && x.sys.fallow.isNone)

/-- FILL records of a TID that are to take effect. -/
def Half.fillsDue (x : Half) (tid : Nat) : Nat :=
  (x.asr.journal.filter (fun r => match r.body with
    | .sqEntry _ _ _ i out e _ => !r.done && i == tid && out == 0 && bn e 0 1 == 2
    | _ => false)).length

/-- The next acceptance sequence number (R272): records not yet accepted have numbers of their own. -/
def Half.nextAseq (x : Half) : Nat :=
  x.asr.journal.foldl (fun n r => match r.body with
    | .sqEntry _ a _ _ _ _ _ => max n a
    | _ => n) x.txe.aseq + 1

/-- The TID that a fetched entry makes or names (R251, R347). -/
def Half.entryTid (x : Half) (e : Bytes) : Nat :=
  match bn e 0 1 with
  | 1 => if (x.createTmpl e).isSome then (x.freeTids.head?).getD 0xFFFF else 0xFFFF
  | 2 => bn e 4 2
  | _ => 0xFFFF

/-- OUTCOME of an entry's record (R347). -/
def Half.entryOutcome (x : Half) (e : Bytes) (tid : Nat) : Nat :=
  match bn e 0 1 with
  | 1 => if (x.createTmpl e).isSome && tid != 0xFFFF then 0 else 0x24
  | 2 => if (x.fillTxn e).any (fun t => decide (bitNat t.h.isSome + t.hq.length + x.fillsDue tid < 17)) then 0 else 0x24
  | 3 => 0
  | _ => 0x24

/-- The template whose operand an entry supplies. -/
def Half.entryTmpl (x : Half) (e : Bytes) : Option Tmpl :=
  match bn e 0 1 with
  | 1 => x.createTmpl e
  | 2 => (x.fillTxn e).map (fun t => t.t)
  | _ => none

/-- A fetched entry goes to the journal (R342), its operand's bytes with it. -/
def Half.journalEntry (x : Half) (e : StagedEntry) (payload : Bytes) : JRec :=
  let out := x.entryOutcome e.entry e.tid
  let op := out == 0 && sqLen e.entry != 0 && (bn e.entry 0 1 == 1 || bn e.entry 0 1 == 2)
  x.jNew e.q none (.sqEntry e.q (if op then x.nextAseq else 0) e.pos e.tid out e.entry payload)

/-- The fetched entries of SQ `q` go to the journal in ring order (R269), up to the first that still lacks its operand or
finds no room (R348). -/
def Half.journalStaged (x : Half) (q : Nat) : Half :=
  ((x.txe.staged.filter (fun e => e.q == q && !e.sent)).foldl (fun (a : Bool × Half) e =>
    match e.payload with
    | some p =>
      let r := a.2.journalEntry e p
      if a.1 && a.2.asr.active && a.2.jOpen && a.2.jRoom r then
        let y := a.2.jPut r
        (true, { y with txe := { y.txe with staged := y.txe.staged.map (fun f => if f == e then { f with sent := true } else f) } })
      else (false, a.2)
    | none => (false, a.2)) (true, x)).2

/-- Fetch the next entry of SQ `q` (R259, R269, R358). -/
def Half.fetchEntry (x : Half) (q : Nat) (entry : Bytes) : Half :=
  let (e, z) := x.entryBytes q entry
  if !x.sqHas q || !x.canFetch q || x.run.state == .recovering then x
  else
  let x := z
  if x.asr.active then
    let reads := (x.entryTmpl e).any (fun t => needsRead t e)
    ({ x with txe := { x.txe with staged := x.txe.staged ++
      [⟨q, x.fetchPos q, e, x.entryTid e, if reads then none else some [], false⟩] } } : Half).journalStaged q
  else x.takeEntry q e x.freeTids.head? none

/-- An entry is fetched by the row of its OPC; one of an OPC that R259 does not know is fetched as a CREATE. -/
def State.fetch (s : State) (h : HalfId) (q : BitVec 6) (entry : Bytes) (mine : Nat → Bool) : State :=
  let x := s.half h
  if mine (bn (x.entryBytes q.toNat entry).1 0 1) then
    ((s.txe h (fun y => y.fetchEntry q.toNat entry)).sameJournal h).settle
  else s

/-- CREATE (R251, R259, R263): a transaction of a template. -/
def execCreate (h : HalfId) (q : BitVec 6) (entry : Bytes) (s : State) : Host.Outcome State Fault Refusal :=
  .next (s.fetch h q entry (fun c => c != 2 && c != 3))

/-- FILL (R259, R268): an operand of a standing transaction. -/
def execFill (h : HalfId) (q : BitVec 6) (entry : Bytes) (s : State) : Host.Outcome State Fault Refusal :=
  .next (s.fetch h q entry (fun c => c == 2))

/-- SQ_ABORT (R259, R271). -/
def execSqAbort (h : HalfId) (q : BitVec 6) (entry : Bytes) (s : State) : Host.Outcome State Fault Refusal :=
  .next (s.fetch h q entry (fun c => c == 3))

/-- The oldest operand of a transaction that is not accepted. -/
def Txn.unread (t : Txn) : Option HOp :=
  match t.h with
  | some o => if o.seq.isNone then some o else t.hq.find? (fun p => p.seq.isNone)
  | none => none

/-- The bytes of an operand (R272, R415): what the read of host memory returned, in the operand's length, or what device
memory holds for a bound queue pair. -/
def Half.operandBytes (x : Half) (q addr len : Nat) (payload : Bytes) : Bytes × Half :=
  if x.qBound q then x.boundRead addr len else ((payload ++ zeros len).take len, x)

/-- H_OPERAND_ACCEPT (R263, R272): the operand's bytes have been read; with assured operation active they go to the journal,
and the operand is accepted when its record is confirmed. -/
def execHOperandAccept (h : HalfId) (tid : BitVec 12) (payload : Bytes) (s : State) : Host.Outcome State Fault Refusal :=
  let x := s.half h
  let go (y : Half) : Half :=
    if y.asr.active then
      match y.txe.staged.find? (fun e => e.tid == tid.toNat && e.payload.isNone) with
      | some e =>
        if y.canFetch e.q then
          let (b, z) := y.operandBytes e.q (bn e.entry 0x10 8) (sqLen e.entry) payload
          ({ z with txe := { z.txe with staged := markFirst (fun f => f == e) (fun f => { f with payload := some b }) z.txe.staged } } :
            Half).journalStaged e.q
        else y
      | none => y
    else
      match (y.txn tid.toNat).bind Txn.unread with
      | some o => 
        if y.canFetch o.sq then
          let (b, z) := y.operandBytes o.sq o.addr o.len payload
          z.acceptOp tid.toNat b
        else y
      | none => y
  .next (if x.run.state == .recovering then s else ((s.txe h go).sameJournal h).settle)

/-! ## Dispatch and completion -/

/-- DISPATCH (R264, R266): one ready transaction goes to its handler. With assured operation active the engine dispatches
at the boundaries (log entry 6). -/
def execDispatch (h : HalfId) (s : State) : Host.Outcome State Fault Refusal :=
  let x := s.half h
  .next (if x.asr.active || !x.fabLead || x.sys.fallow.isSome then s else (s.txe h Half.dispatchOne).settle)

/-- TRANSACTION_COMPLETE (R261, R262, R267, R268): the entry of a transaction that has reached its outcome is posted. -/
def execTransactionComplete (h : HalfId) (tid : BitVec 12) (s : State) : Host.Outcome State Fault Refusal :=
  .next (if !(s.half h).fabLead || (s.half h).sys.fallow.isSome then s else (s.txe h (fun x => x.completeTxn tid.toNat)).settle)

/-- A wait in real time has run out for the transaction (R270). -/
def Half.nsExpiry (x : Half) (tid : Nat) : Half :=
  match x.txn tid with
  | some t =>
    if t.open_ && !t.ready && !t.running && t.t.toNs && t.t.timeout != 0 && !t.expiring &&
        !(x.asr.journal ++ x.asr.waiting).any (fun r => !r.done && r.src == tid && r.body == .engine 2 0) then
      if x.asr.active then x.journal tid (t.t.firstPort.map (fun p => x.rfld (Reg.txeDpCfg p) 0 8)) (.engine 2 0)
      else if t.t.firstPort.isSome then x.setTxn tid (some { t with expiring := true })
      else x.expireTxn tid
    else x
  | none => x

/-- TXE_TIMEOUT (R262, R270): a time-out in nanoseconds expires; one in user cycles expires within TICK. -/
def execTxeTimeout (h : HalfId) (tid : BitVec 12) (s : State) : Host.Outcome State Fault Refusal :=
  .next (if (s.half h).run.state == .recovering then s else ((s.txe h (fun x => x.nsExpiry tid.toNat)).sameJournal h).settle)

/-- A write of `TXE_ABORT` (R271, R285); with assured operation active it is journalled (R342). -/
def State.txeAbort (s : State) (h : HalfId) (v : Word) : State :=
  if !wbit v 31 then s
  else
    let tid := fld v 0 12
    ((s.txe h (fun x => if x.asr.active then x.journal tid none (.engine 1 0) else x.abortRes tid)).sameJournal h).settle

/-- TXE_ABORT (R271, R285). -/
def execTxeAbort (h : HalfId) (m : Master) (v : Word) (s : State) : Host.Outcome State Fault Refusal :=
  .next (s.byMaster h m (fun s => s.txeAbort h v))

/-- A write of `TXE_CQ_HEAD_q` (R261, R342, R357): the horizon moves at once; with assured operation active the engine takes
the new HEAD as a journalled input. -/
def State.cqHead (s : State) (h : HalfId) (q : Nat) (v : Nat) : State :=
  ((s.txe h (fun x =>
    let y := x.setReg (Reg.txeCqHead q) (BitVec.ofNat 32 v)
    if y.asr.active then (y.ackCq q v).journal q none (.engine 3 v) else (y.ackCq q v).takeCqHead q v)).sameJournal h).settle

/-- CQ_HEAD_WRITE (R261, R287, R357). -/
def execCqHeadWrite (h : HalfId) (m : Master) (q : BitVec 6) (v : Word) (s : State) : Host.Outcome State Fault Refusal :=
  .next (s.byMaster h m (fun s => s.cqHead h q.toNat (fld v 0 16)))

/-- SQ_ENABLE (R287): a write of `TXE_SQ_CFG_q`. -/
def execSqEnable (h : HalfId) (m : Master) (q : BitVec 6) (v : Word) (s : State) : Host.Outcome State Fault Refusal :=
  .next (s.byMaster h m (fun s => s.txe h (fun x => x.sqCfgWrite q.toNat v)))

/-- CQ_ENABLE (R287, R357): a write of `TXE_CQ_CFG_q`. -/
def execCqEnable (h : HalfId) (m : Master) (q : BitVec 6) (v : Word) (s : State) : Host.Outcome State Fault Refusal :=
  .next (s.byMaster h m (fun s => s.txe h (fun x => x.cqCfgWrite q.toNat v)))

/-! ## Host faults (R262, R359, R480) -/

/-- An access to host memory for a transaction failed: an operand that was still to be read is not accepted; a transaction
whose own operand or data is concerned ends HOST_FAULT. Another access that failed, the read of an entry or the write of a
completion, is reported in `TXE_ERR` (log entry 77). -/
def Half.hostFault (x : Half) (tid : Nat) : Half :=
  match x.txn tid with
  | some t =>
    let y := x.txeErr 1
    if !t.open_ then y
    else
      match t.h, t.unread with
      | some o, some u =>
        if o.seq.isNone then
          let z := y.giveUp tid t
          match z.txn tid with
          | some t => z.endTxn tid t 0x23 x.run.cyc
          | none => z
        else
          let z := y.setTxn tid (some { t with hq := t.hq.erase u })
          if z.cqOn u.sq then z.cqWrite u.sq ⟨tid, 0x23, u.sq, u.ctag, 0, 0, 0, x.run.cyc⟩ [] else z
      | _, _ => y.endTxn tid t 0x23 ((t.commit).getD x.run.cyc)
  | none => x.txeErr 1

/-- HOST_FAULT (R262, R359, R480): with assured operation active the access is retried, and a link that is down is never a
host fault (R479). -/
def execHostFault (h : HalfId) (tid : BitVec 12) (s : State) : Host.Outcome State Fault Refusal :=
  let x := s.half h
  .next (if x.asr.active || x.pci.down then s else (s.txe h (fun y => y.hostFault tid.toNat)).settle)

end Sys2Proof.Machine
end

