-- ==== Sys2Proof/Machine/EngCmds.lean ====
section
/-!
DEFINITION. Machine/EngCmds.lean: arming and aborting engines (R291, R294, R295, R324, R332, R342).
-/

namespace Sys2Proof.Machine

/-- A run-control action of an engine is journalled and takes effect at a boundary: with assured operation active while the
run moves; in RECOVERING it waits (R361). While the run is held the action takes effect at once, recorded with the cycle of
its boundary (log entry 11). -/
def Half.deferred (x : Half) : Bool :=
  x.asr.active && (x.run.state == .recovering || (x.run.state == .running && x.run.cond.isNone))

/-- An action that has taken effect is recorded where assured operation is active: with the cycle of the stall point, or
between ticks with the next one. -/
def Half.noteControl (x : Half) (src : Nat) (body : JBody) : Half :=
  if x.asr.active then x.jNote src x.run.cyc (x.run.stall.isNone && x.run.rest.isEmpty) body else x

/-- ARM reaches its engine: it is journalled, or completes now. -/
def State.armNow (s : State) (h : HalfId) (k : EngKind) (e idx : Nat) (seq : Bool) : State :=
  let parts := (s.half h).descParts idx
  let s := s.upd h (fun x => x.descRead idx)
  let body : JBody := .control 1 idx seq parts
  if (s.half h).deferred then (s.upd h (fun x => x.journal (engNum k e) none body)).sameJournal h
  else ((s.armDone h k e idx seq).upd h (fun x => x.noteControl (engNum k e) body)).sameJournal h

/-- A request to arm that is being worked on for an engine completes (R291). -/
def State.armFinish (s : State) (h : HalfId) (k : EngKind) (e : Nat) : State :=
  match sget (s.half h).eng.arming (engNum k e) none with
  | some (idx, seq) =>
    let t := s.upd h (fun x => { x with eng := { x.eng with arming := sput x.eng.arming (engNum k e) none none } })
    t.armNow h k e idx seq
  | none => s

/-- A request to arm arrives (R291): requests to one engine act in their order. -/
def State.armRequest (s : State) (h : HalfId) (k : EngKind) (e idx : Nat) (seq : Bool) : State :=
  (s.armFinish h k e).upd h (fun x => x.armAsk k e idx seq)

/-- A request to abort arrives (R291, R295). -/
def State.abortRequest (s : State) (h : HalfId) (k : EngKind) (e : Nat) (seq : Bool) : State :=
  let s := s.armFinish h k e
  let body : JBody := .control 2 0 seq []
  if (s.half h).deferred then (s.upd h (fun x => x.journal (engNum k e) none body)).sameJournal h
  else ((s.abortEng h k e seq).upd h (fun x => x.noteControl (engNum k e) body)).sameJournal h

/-- A write of `TRG_CTL_e`, `CAP_CTL_c` or `PLY_CTL_p` (R332): one that sets both ARM and ABORT is ignored. In PAIRED both
halves use the lead half's descriptor (R324). -/
def State.engCtlWrite (s : State) (h : HalfId) (k : EngKind) (e : Nat) (v : Word) : State :=
  if wbit v 12 && wbit v 13 then s
  else
    let s := s.upd h (fun x => x.setReg (ctlReg k e) (v &&& 0xFF800FFF#32))
    let g := if (s.half h).run.mode == .paired then s.leadOf h else h
    let s := if wbit v 12 then s.armRequest g k e (fld v 0 12) false else s
    if wbit v 13 then s.abortRequest g k e false else s

/-- ENGINE_ARM (R291, R332). -/
def execEngineArm (h : HalfId) (m : Master) (k : EngKind) (e : BitVec 2) (v : Word) (s : State) :
    Host.Outcome State Fault Refusal :=
  .next (s.byMaster h m (fun s => (s.engCtlWrite h k e.toNat (v ||| 0x1000#32)).settle))

/-- ENGINE_ABORT (R295, R332). -/
def execEngineAbort (h : HalfId) (m : Master) (k : EngKind) (e : BitVec 2) (v : Word) (s : State) :
    Host.Outcome State Fault Refusal :=
  .next (s.byMaster h m (fun s => (s.engCtlWrite h k e.toNat (v ||| 0x2000#32)).settle))

/-- ARM_COMPLETE (R291 to R294): the descriptor is read and validated, and the engine armed or refused. -/
def execArmComplete (h : HalfId) (k : EngKind) (e : BitVec 2) (s : State) : Host.Outcome State Fault Refusal :=
  .next (s.armFinish h k e.toNat).settle

end Sys2Proof.Machine
end

