-- ==== Sys2Proof/Machine/AsrCmds.lean ====
section
/-!
DEFINITION. Machine/AsrCmds.lean: the commands of assured operation: `ASR_CTRL`, checkpoints, confirmation, recovery,
diagnosis and the loss of a half (R340 to R368).
-/

namespace Sys2Proof.Machine

/-! ## `ASR_CTRL` (R340, R341, R350, R355, R374) -/

/-- The ASR area lies in the half's HBM, meets no design-owned and no armed region, and holds `need` MiB (R340). -/
def Half.areaOk (x : Half) (need : Nat) : Bool :=
  let b := x.rfld Reg.asrAreaBase 0 16 * 2 ^ 20
  let n := x.rfld Reg.asrAreaSize 0 16
  decide (need ≤ n) && rangesOk [(b, b + n * 2 ^ 20)] (x.portRanges ++ x.capRanges 4 ++ x.plyRanges 4)

/-- A capture engine is armed in gap mode (R340). -/
def Half.gapArmed (x : Half) : Bool :=
  (List.range 4).any (fun c => (x.cap c).st.armed && (match (x.cap c).desc with
    | some d => natBit d.flags 0
    | none => false))

/-- The templates keep the rule on CQs (R340): one whose DST is HOST names a CQ, and no CQ receives the completions of a
template with a LINK endpoint and of another one. -/
def Half.cqRule (x : Half) : Bool :=
  let ts := x.txe.tmpl.filterMap (fun (e : Nat × Option Tmpl) => e.2)
  let link (t : Tmpl) : Bool := epKind t.src == 3 || epKind t.dst == 3
  ts.all (fun t => epKind t.dst != 1 || t.cq != 0xFF) &&
  ts.all (fun t => t.cq == 0xFF || ts.all (fun u => u.cq != t.cq || link u == link t))

/-- EN_ERR of a half (R340): the first condition that fails, 0 where none does; `need` is NEED_MIB. -/
def Half.enErr (x : Half) (need : Nat) (pair : Bool) : Nat :=
  if !x.run.assured || x.run.loaded.isNone then 1
  else if !(x.run.state == .ready || x.run.state == .stopped || x.run.state == .faulted) then 2
  else if !x.areaOk need then 3
  else if x.gapArmed then 4
  else if !x.cqRule then 5
  else if pair && !(x.rbit Reg.pciStatus 3 && x.rbit Reg.pciStatus 2) then 6
  else if !x.rbit Reg.xchBrgStatus 2 then 7
  else 0

/-- A half's check of an EN write: NEED_MIB is computed anew, and EN_ERR reports the check. -/
def Half.enCheck (x : Half) (pair : Bool) : Half :=
  let (need, y) := x.fresh 16
  let z := y.setReg Reg.asrNeed (need.setWidth 32)
  z.setRFld Reg.asrStatus 20 4 (z.enErr need.toNat pair)

/-- EN is written 1 while it is 0: every half of the run checks its own conditions. -/
def State.asrEnable (s : State) (h : HalfId) : State :=
  let m := (s.half h).imgMode
  let t := s.imgGrp h (fun x => x.enCheck (s.joint m && m == .paired))
  if (s.runHalves h m).any (fun k => (t.half k).rfld Reg.asrStatus 20 4 != 0) then t
  else t.imgGrp h (fun x => x.setRBit Reg.asrCtrl 0 true)

/-- The slices of channel `k` whose records had not taken effect return to the head of its queue. -/
def Half.slicesBack (x : Half) : Half :=
  (List.range 32).foldl (fun y k =>
    let back := y.asr.journal.filterMap (fun r => match r.body with
      | .inputBits 1 _ _ _ b => if r.src = k ∧ r.done = false then some b else none
      | _ => none)
    if back.isEmpty then y else y.setChan k { y.chan k with queue := back ++ (y.chan k).queue }) x

/-- Assured operation ends with an input pending (log entry 100): a run-control action, an event of the transaction engine and
an accepted SQ entry take effect at once, an external edge enters the queue; samples end, and what else was not accepted is
fetched again. -/
def State.endRec (s : State) (h : HalfId) (r : JRec) : State :=
  match r.body with
  | .sqEntry .. => if r.conf && !r.done then s.applyRec h r else s
  | .engine .. => if r.done then s else s.applyRec h r
  | .control .. => if r.done then s else s.applyRec h r
  | .extEdge f =>
    if r.conf && !r.redo then s
    else s.twins h (fun x => { x with run := { x.run with ext := x.run.ext ++ [⟨⟨r.src, f⟩, x.run.steps, none⟩] } })
  | _ => s

/-- EN is written 0: assured operation ends. -/
def State.asrDisable (s : State) (h : HalfId) : State :=
  let t := (s.heads h).foldl (fun t k =>
    ((t.half k).asr.journal ++ (t.half k).asr.waiting).foldl (fun u r => u.endRec k r) t) s
  t.imgGrp h (fun x =>
    let y := (x.setRBit Reg.asrCtrl 0 false).slicesBack
    { y with
      asr := { y.asr with st := .off, active := false, phase := none, fresh := none, replay := none, restoring := none
                          rewrite := false, recur := false, episode := none, journal := [], waiting := [], gates := [] }
      txe := { y.txe with staged := [] } })

/-- A CKPT that waits ends (R196): with the number of the generation, where none came with a value the specification
leaves open. -/
def Half.endCkpt (x : Half) (gen : Option Nat) : Half :=
  match x.seq.wait with
  | .ckpt wd => match gen with
    | some g => x.endWait wd (BitVec.ofNat 64 g)
    | none => let (v, y) := x.fresh 64
              y.endWait wd v
  | _ => x

/-- ABORT_CKPT (R355): before the commit point the new generation is discarded. -/
def State.abortCkpt (s : State) (h : HalfId) : State :=
  if s.anyGrp h (fun x => x.asr.phase.isSome) then
    s.grp h (fun x =>
      (({ x with asr := { x.asr with phase := none, fresh := none } } : Half).setRFld Reg.asrCmdStat 8 8 0x0C).endCkpt none)
  else s.grp h (fun x => x.setRFld Reg.asrCmdStat 8 8 0x0D)

/-- A write of `ASR_CTRL` (R374). EN, CKPT_REQ and ABORT_CKPT act through the lead half on the halves of the run. -/
def State.asrCtrlWrite (s : State) (h : HalfId) (v : Word) : State :=
  let n := fld v 8 6
  let s := if !(s.half h).inRun && decide (10 ≤ n) && decide (n ≤ 32) then s.upd h (fun x => x.setRFld Reg.asrCtrl 8 6 n) else s
  if !s.leads h then s
  else
    let on := (s.half h).rbit Reg.asrCtrl 0
    let s := if wbit v 0 && !on then s.asrEnable h else if !wbit v 0 && on then s.asrDisable h else s
    let s := if wbit v 1 then s.grp h Half.ckptAsk else s
    if wbit v 2 then s.abortCkpt h else s

/-- ASR_EN_WRITE (R340, R374). -/
def execAsrEnWrite (h : HalfId) (m : Master) (v : Word) (s : State) : Host.Outcome State Fault Refusal :=
  .next (s.byMaster h m (fun s => (s.asrCtrlWrite h v).settle))

/-- CKPT_REQ (R350): the write of `ASR_CTRL` that keeps EN and CKPT_LOG2. -/
def execCkptReq (h : HalfId) (m : Master) (s : State) : Host.Outcome State Fault Refusal :=
  .next (s.byMaster h m (fun s => s.asrCtrlWrite h (((s.half h).reg Reg.asrCtrl &&& 0x3F01#32) ||| 2#32)))

/-- ABORT_CKPT (R355). -/
def execAbortCkpt (h : HalfId) (m : Master) (s : State) : Host.Outcome State Fault Refusal :=
  .next (s.byMaster h m (fun s => (s.asrCtrlWrite h (((s.half h).reg Reg.asrCtrl &&& 0x3F01#32) ||| 4#32)).settle))

/-! ## Checkpoints (R350 to R354) -/

/-- SCHEDULED_CHECKPOINT (R350, R352): at the stall point of a scheduled cycle, once no other stall condition holds. -/
def execScheduledCheckpoint (h : HalfId) (s : State) : Host.Outcome State Fault Refusal :=
  .next (match (s.half h).run.stall with
    | none => s
    | some p =>
      let clear (x : Half) : Bool :=
        !x.hbmStall && !x.capStall && !x.plyStall p.cur.dom && x.run.cond.isNone && !x.run.hfault && !x.asr.recur &&
        x.run.thrReq.isNone && !x.ckptCopying
      if (s.half h).run.state == .running && s.anyGrp h Half.ckptDue && !s.anyGrp h (fun x => !clear x) && !s.partnerGone h then
        s.grp h Half.beginCkpt
      else s)

/-- The copy is complete (R352 step 3): the stall point is released, the MARK record written. -/
def Half.copied (x : Half) : Half :=
  match x.asr.phase, x.asr.fresh with
  | some .copying, some g =>
    let start := x.asr.gens.isEmpty
    let y := x.jNote 0 x.run.cyc false (.mark g.gen start)
    { y with asr := { y.asr with phase := some .verifying, fresh := some { g with mark := y.asr.jseq } } }
  | _, _ => x

/-- The checkpoint of the run fails (R352). -/
def State.failCkpt (s : State) (h : HalfId) : State := s.grp h (fun x => x.failCkpt.endCkpt none)

/-- CHECKPOINT_COPY_DONE (R352): the state is copied into both areas, or cannot be written. -/
def execCheckpointCopyDone (h : HalfId) (ok : Bool) (s : State) : Host.Outcome State Fault Refusal :=
  .next (if (s.half h).asr.phase != some .copying then s
    else if ok then ((s.grp h Half.copied).sameJournal h).mirrorAsr h
    else (s.failCkpt h).settle)

/-- The inputs that waited are journalled as far as there is room (R348): SQ entries, input slices and what arrived at the
halves. -/
def Half.flushInputs (x : Half) : Half := ((List.range 64).foldl Half.journalStaged x.flushWaiting).drainChans

/-- The same for the halves that journal for a run. -/
def State.flushInputs (s : State) (h : HalfId) : State :=
  (s.heads h).foldl (fun t k => (t.upd k Half.flushInputs).sameJournal k) s

/-- CHECKPOINT_COMMIT (R352, R354, R365): both copies are verified and the commit records written; in PAIRED once the
signatures of the cycle have compared equal. -/
def execCheckpointCommit (h : HalfId) (ok : Bool) (s : State) : Host.Outcome State Fault Refusal :=
  let x := s.half h
  .next (match x.asr.phase, x.asr.fresh with
    | some .verifying, some g =>
      if !ok then (s.failCkpt h).settle
      else if s.paired h && x.run.mode == .paired && x.asr.sigs.any (fun p => decide (p.1.toNat ≤ g.cyc.toNat)) then s
      else
        let t := s.grp h (fun y => match y.asr.fresh with
          | some f => ((y.commitGen f).endCkpt (some f.gen)).wakeQueues
          | none => y)
        ((s.members h).foldl (fun t k => t.mirrorAsr k) (t.flushInputs h)).settle
    | _, _ => s)

/-! ## Journal confirmation (R342, R345, R358) -/

/-- What the confirmation of a record makes accepted. -/
def Half.accepted (x : Half) (r : JRec) : Half :=
  let y := (x.setRec r.jseq (fun q => { q with conf := true })).setReg64 Reg.asrJseqLo Reg.asrJseqHi
    (max r.jseq (x.reg64 Reg.asrJseqLo Reg.asrJseqHi))
  match r.body with
  | .sqEntry _ aseq .. => if aseq = 0 then y else y.gaveSeq aseq
  | .extEdge f =>
    ({ y with run := { y.run with ext := y.run.ext ++ [⟨⟨r.src, f⟩, y.run.steps, some r.jseq⟩] } } : Half).setRec r.jseq
      (fun q => { q with minStep := y.run.steps })
  | _ => y

/-- JOURNAL_CONFIRM (R342, R345): a record is confirmed in the HBM of both halves. -/
def execJournalConfirm (h : HalfId) (jseq : BitVec 48) (s : State) : Host.Outcome State Fault Refusal :=
  .next (match (s.half h).asr.journal.find? (fun r => r.jseq == jseq.toNat && !r.conf) with
    | some r =>
      if (s.half h).asr.active && (s.heads h).contains h then ((s.twins h (fun x => x.accepted r)).sameJournal h).mirrorAsr h else s
    | none => s)

/-! ## Signatures, recovery and replay (R33, R360 to R365) -/

/-- SIGNATURE_COMPARE (R33, R365). -/
def execSignatureCompare (h : HalfId) (s : State) : Host.Outcome State Fault Refusal :=
  .next (if s.paired h && (s.half h).run.mode == .paired then (s.sigCompare h).settle else s)

/-- CAUSE of a recovery (R375). -/
def recoverCode : RecoverCause → Nat
  | .dataUncorr => 1
  | .storeUncorr => 2
  | .bridgeData => 3

/-- RECOVERY (R360, R365): a recoverable fault takes effect. In PAIRED it is handled as a mismatch at the cycle of the
fault. -/
def execRecovery (h : HalfId) (c : RecoverCause) (s : State) : Host.Outcome State Fault Refusal :=
  let x := s.half h
  .next (if !s.anyGrp h (fun y => y.run.hfault) || !x.asr.active || x.asr.recur || x.run.stall.isNone
        || (c == .bridgeData && x.run.mode != .joined)
        || !(x.run.state == .running || x.run.state == .held || (x.run.state == .recovering && x.asr.restoring.isNone)) then s
    else
      let s := s.grp h (fun y => { y with run := { y.run with hfault := false } })
      -- a pattern word that replay reads with an error again cannot be recovered (R604)
      if s.anyGrp h (fun y => y.asr.patAgain) then (s.grp h (fun y => (y.asrCause 1).intoFaulted)).settle
      else if s.paired h && x.run.mode == .paired then (s.mismatch h x.run.cyc 0).settle
      else (s.grp h (fun y => y.intoRecovery (recoverCode c) (c == .storeUncorr))).settle)

/-- STORE_REWRITE_DONE (R360 step 2). -/
def execStoreRewriteDone (h : HalfId) (s : State) : Host.Outcome State Fault Refusal :=
  .next (if (s.half h).asr.rewrite && !(s.half h).sys.stwHalt then
      s.grp h (fun x => let y := x.rewriteStores
                        { y with asr := { y.asr with rewrite := false } })
    else s)

/-- Restore a generation in a half (R351, R358, R361); what ended with it replays up to REPLAY_END. -/
def Half.restoreGen (x : Half) (g : Snap) : Half :=
  let e := BitVec.ofNat 64 (x.reg64 Reg.asrReplayEndLo Reg.asrReplayEndHi)
  let y := ((x.restoreSnap g).rearmJournal g).chansRestore
  { y with asr := { y.asr with
    restoring := none, replay := if e + 1#64 ≠ 0#64 ∧ g.cyc.toNat ≤ e.toNat then some e else none } }

/-- The generation that a restore brings back (R362): the one it asks for, or where that cannot be read the one before. -/
def Half.pickGen (x : Half) (want : Nat) (newOk oldOk : Bool) : Option Snap :=
  match x.asr.gens with
  | g :: l => if g.gen = want then (if newOk then some g else match l with
      | o :: _ => if oldOk then some o else none
      | [] => none)
    else match l with
      | o :: _ => if o.gen = want ∧ oldOk = true then some o else none
      | [] => none
  | [] => none

/-- RESTORE_DONE (R360 step 3, R362, R363): the restore has ended. Where no generation can be read the run is FAULTED. A
RESTORE instruction ends, and the run stays STOPPED. -/
def execRestoreDone (h : HalfId) (newReadable oldReadable : Bool) (s : State) : Host.Outcome State Fault Refusal :=
  let x := s.half h
  .next (match x.asr.restoring with
    | none => s
    | some want =>
      if x.asr.rewrite then s
      else
        let pick (y : Half) : Option Snap := y.pickGen want newReadable oldReadable
        let back (y : Half) : Half := match pick y with
          | some g => y.restoreGen g
          | none => y
        if s.anyGrp h (fun y => (pick y).isNone) then
          (s.grp h (fun y =>
            let z := { y with asr := { y.asr with restoring := none } }
            let w := match z.seq.wait with
              | .restore wd => z.endWait wd (statusWord 0x0A 0)
              | _ => z
            (w.asrCause 8).intoFaulted)).settle
        else if x.run.state == .recovering then s.grp h back
        else
          (s.grp h (fun y =>
            let z := back y
            let z := { z with asr := { z.asr with st := .suspended } }
            let z := if z.run.state == .stopped then z else z.enter .stopped
            match z.seq.wait with
              | .restore wd => z.endWait wd (statusWord 0 0)
              | _ => z)).settle)

/-- REPLAY_END (R360 step 5, R361): every cycle up to REPLAY_END has been replayed. -/
def execReplayEnd (h : HalfId) (s : State) : Host.Outcome State Fault Refusal :=
  let x := s.half h
  .next (if x.run.state != .recovering || x.asr.restoring.isSome || x.asr.rewrite || x.replaying || x.asr.recur then s
    else
      let t := s.grp h (fun y =>
        let z := ({ y with asr := { y.asr with st := .active, replay := none, patBad := [] } } : Half).asrEvt 1
        z.enter .running)
      let t := t.flushInputs h
      (match t.asked h with
        | some q => (t.raiseHold h q).holdRun h q
        | none => t).settle)

/-! ## Diagnosis, heartbeats, takeover (R366 to R368, R373) -/

/-- DIAGNOSIS (R242, R366): the mismatch of the episode has recurred; a preserving march test starts in each half. -/
def execDiagnosis (h : HalfId) (s : State) : Host.Outcome State Fault Refusal :=
  .next (if (s.half h).asr.recur then 
      s.grp h (fun x => { x.marchDiagnose with asr := { x.asr with st := .diagnosing } }) else s)

/-- Half `r` is retired (R366, R368): it leaves the run, the other half goes on alone and its outputs leave without
comparison. If the retired half was the lead, the takeover is due. -/
def State.retire (s : State) (r : HalfId) : State :=
  let o := otherHalf r
  let lead := (s.half r).run.lead
  let t := s.both (fun x => (x.setRBit Reg.asrStatus (18 + halfNum r) true).asrEvt 3)
  let t := t.upd r (fun x =>
    let y := { x with asr := { x.asr with recur := false } }
    if y.inRun then y.intoFaulted else y)
  t.upd o (fun x =>
    let y := x.releaseOut (x.run.cyc)
    { y with asr := { y.asr with recur := false, episode := none, taking := lead || y.asr.taking } })

/-- DIAGNOSIS_DONE (R366). -/
def execDiagnosisDone (h : HalfId) (fail0 fail1 : Bool) (s : State) : Host.Outcome State Fault Refusal :=
  -- the march tests of diagnosis have ended with it
  let s := if (s.half h).asr.st != .diagnosing then s
    else s.grp h (fun x =>
      if x.marchBusy then x.marchReport (if (if x.self = .h0 then fail0 else fail1) then 4 else 1) 0 else x)
  .next (if (s.half h).asr.st != .diagnosing then s
    else if fail0 == fail1 then
      (s.grp h (fun x => ({ (x.asrCause 9) with asr := { x.asr with recur := false } } : Half).intoFaulted)).settle
    else
      let r : HalfId := if fail0 then .h0 else .h1
      let back (x : Half) : Half := { x with asr := { x.asr with
        st := if x.run.state == .recovering then .recovering else .active } }
      ((s.grp h back).retire r).settle)

/-- HEARTBEAT (R367): a half sends one on the bridge, or its steward one on the sideband; three in a row end SIDEBAND_LOST. -/
def execHeartbeat (h : HalfId) (sideband : Bool) (s : State) : Host.Outcome State Fault Refusal :=
  .next (if sideband then
      let t := s.upd h (fun x => { x with asr := { x.asr with sbBeats := x.asr.sbBeats + 1 } })
      t.upd (otherHalf h) (fun x =>
        if x.asr.sbLost then
          { x with asr := { x.asr with sbLost := decide (x.asr.sbBack < 2), sbBack := if x.asr.sbBack < 2 then x.asr.sbBack + 1 else 0 } }
        else x)
    else s.upd h (fun x => { x with asr := { x.asr with beats := x.asr.beats + 1 } }))

/-- The bridge is lost (R367, R368, R373). -/
def State.bridgeLost (s : State) (h : HalfId) : State :=
  let note (x : Half) : Half := (x.asrEvt 5).asrCause 6
  if s.paired h then
    let t := s.both note
    if !(s.half h).inRun then t
    else match (s.half h).run.mode with
      | .paired => t.retire (otherHalf (s.leadOf h))
      | _ => t.faultRun h
  else if (s.half h).run.mode == .split then
    s.both (fun x => let y := note x
                     if y.asr.active && y.inRun then y.request 8 none false else y)
  -- only one half takes part in the run: no bridge heartbeats are expected
  else s

/-- The other half is lost (R367, R368, R373). -/
def State.halfLost (s : State) (h : HalfId) : State :=
  let t := s.upd h (fun x => (x.asrEvt 4).asrCause 5)
  if s.paired h then
    if !(s.half h).inRun then t
    else match (s.half h).run.mode with
      | .paired => t.retire (otherHalf h)
      | _ => t.faultRun h
  else t

/-- HEARTBEAT_LOSS (R367, R368, R373): missing heartbeats are classified. While SIDEBAND_LOST stands, lost bridge
heartbeats are BRIDGE_LOST. -/
def execHeartbeatLoss (h : HalfId) (c : LossClass) (s : State) : Host.Outcome State Fault Refusal :=
  .next (match c with
    | .sidebandLost => s.both (fun x =>
        ({ x with asr := { x.asr with sbLost := true, sbBack := 0 } } : Half).asrEvt 9)
    | .sidebandBack => s.both (fun x => { x with asr := { x.asr with sbLost := false, sbBack := 0 } })
    | .bridgeLost => (s.bridgeLost h).settle
    | .halfLost => (if (s.half h).asr.sbLost then s.bridgeLost h else s.halfLost h).settle)

/-- TAKEOVER (R194, R368): the survivor becomes the lead; its engine's mirrored queue configuration and positions become
its endpoint's, the copied sequencer its own, and its ASR vector is raised. -/
def execTakeover (h : HalfId) (s : State) : Host.Outcome State Fault Refusal :=
  .next (if !(s.half h).asr.taking then s
    else
      let t := s.upd (otherHalf h) (fun x => { x with run := { x.run with lead := false } })
      (t.upd h (fun x =>
        let own : SMap Word := keepKeys (fun k => !isTxeReg k) x.regs
        let regs := (keepKeys isTxeReg x.asr.mRegs).foldl (fun (m : SMap Word) (e : Nat × Word) => sput m e.1 (regReset e.1) e.2) own
        let y : Half := { x with regs := regs, seq := x.seqCopy, run := { x.run with lead := true }
                                 asr := { x.asr with taking := false } }
        (y.asrEvt 4).wakeQueues)).settle)

/-! ## The half bridge (R137, R564) -/

/-- BRIDGE_TRAINING (R137, R564): both halves have reached stage 8. -/
def execBridgeTraining (s : State) : Host.Outcome State Fault Refusal :=
  let at8 (x : Half) : Bool := decide (7 ≤ x.rfld Reg.stwBoot 16 4) && !x.rbit Reg.xchBrgStatus 2
  .next (if at8 s.h0 && at8 s.h1 then s.both (fun x => x.setRBit Reg.xchBrgStatus 2 true) else s)

/-- BRIDGE_DOWN (R137): UP falls. What a run makes of it follows from the missing heartbeats (R136, R367). -/
def execBridgeDown (s : State) : Host.Outcome State Fault Refusal :=
  .next (s.both (fun x =>
    if x.rbit Reg.xchBrgStatus 2 then (x.setRBit Reg.xchBrgStatus 2 false).setRBit Reg.xchBrgStatus 1 true else x))

end Sys2Proof.Machine
end

