-- ==== Sys2Proof/Machine/AsrExport.lean ====
section
/-!
DEFINITION. Machine/AsrExport.lean: exports and imports of a generation and its journal (R369 to R372, R380).
-/

namespace Sys2Proof.Machine

/-! ## State blocks (R370, section STATE) -/

/-- The part of a generation that a KIND 5 block holds. -/
structure EngBlock where
  vt    : DWord
  pend  : SMap (Option PendEdge)
  ext   : List ExtEdge
  dec   : Option Decision
  stall : Option StallPoint
  rest  : List Due
  regs  : SMap Word
  txe   : Txe
  eng   : Engines
  cseq  : SMap Nat
  sp    : List Host.Cell
  mark  : Nat
  jdone : List Nat
  deriving DecidableEq, Repr

/-- The KIND 5 part of a generation: SP1 and SP2 go with the engines. -/
def Snap.engines (g : Snap) : EngBlock :=
  { vt := g.vt, pend := g.pend, ext := g.ext, dec := g.dec, stall := g.stall, rest := g.rest, regs := g.regs, txe := g.txe
    eng := g.eng, cseq := g.cseq, mark := g.mark, jdone := g.jdone
    sp := keepKeys (fun a => decide (spAddr 1 ≤ a) && decide (a < spAddr 3)) g.mem }

/-- A half as a generation holds it. -/
def Half.asOf (x : Half) (g : Snap) : Half := { x with mem := g.mem, regs := g.regs, ar := g.ar }

/-- The keys of destination registers of a tile in the order of KIND 2, up to LOUT: XIN, TOUT, BROUT; BRIN and LOUT
follow. -/
def dstKeys (n lo count : Nat) : List Nat := (List.range count).map (fun i => n * 2048 + lo + i)

/-- The bits of a KIND 2 block of tile `n` (R370). -/
def Half.regBits (x : Half) (n : Nat) : List Bool :=
  let dst (lo count : Nat) : List Bool := (dstKeys n lo count).map (fun k => (sget x.ar.dst k DstReg.zero).val)
  dst 0 512 ++ dst 0x200 512 ++ dst 0x680 16 ++ (List.range 16).map (fun k => sget x.ar.brin (n * 16 + k) false) ++
  (if n % 8 < 6 then dst 0x690 8 else []) ++
  (List.range 4).flatMap (fun p => dst (0x440 + 128 * p) 26 ++ dst (0x400 + 128 * p) 64 ++
    (List.range 64).map (fun i => (sget x.ar.rdata (n * 4 + p) 0#64).getLsbD i)) ++
  dst 0x600 128

/-- A state block. -/
def stateBlock (kind tile : Nat) (b : Bytes) : Bytes := leBytes 2 kind ++ leBytes 1 tile ++ zeros 5 ++ leBytes 8 b.length ++ b

/-- The pages of 64 KiB of the design-owned HBM regions, as byte offsets. -/
def Half.hbmPages (x : Half) : List Nat :=
  (x.portRanges.flatMap (fun r =>
    (List.range ((r.2 + 65535) / 65536 - r.1 / 65536)).map (fun i => (r.1 / 65536 + i) * 65536))).eraseDups

/-- The STATE section of a generation. -/
def Half.stateSect (x : Half) (g : Snap) : Bytes :=
  let y := x.asOf g
  let slots := y.attrSlots 1
  (List.range 64).flatMap (fun n =>
    let l := slots.filter (fun p => p.1 / 1024 == n)
    if l.isEmpty then [] else stateBlock 1 n (packBits (l.map (fun p => y.slot p.1 p.2)))) ++
  (List.range 64).flatMap (fun n => stateBlock 2 n (packBits (y.regBits n))) ++
  (List.range 64).flatMap (fun n => if y.bankOwned n then stateBlock 3 n (rdBytes y.mem (bankAddr n) 0x100000) else []) ++
  y.hbmPages.flatMap (fun o => stateBlock 4 0xFF (leBytes 8 o ++ rdBytes y.mem (hbmBase + o) 65536)) ++
  stateBlock 5 0xFF (Config.engineBlock EngBlock g.engines)

/-- The HORIZON section from registers (R370): KIND 0 completion queue, 1 design port, 2 host stream. -/
def hznSect (regs : SMap Word) (ports : SMap Word) (caps : List Nat) : Bytes :=
  let r (o : Nat) : Nat := (sget regs o (regReset o)).toNat
  let c (o : Nat) : Nat := (sget ports o (regReset o)).toNat
  let one (k n v : Nat) : Bytes := leBytes 1 k ++ leBytes 1 n ++ zeros 6 ++ leBytes 8 v
  ((List.range 64).filter (fun q => natBit (r (Reg.txeCqCfg q)) 31)).flatMap (fun q =>
    one 0 q (r (Reg.asrCqHznLo q) + r (Reg.asrCqHznHi q) * 2 ^ 32)) ++
  ((List.range 256).filter (fun p => natBit (c (Reg.txeDpCfg p)) 31)).flatMap (fun p =>
    one 1 p (r (Reg.asrDpHznLo p) + r (Reg.asrDpHznHi p) * 2 ^ 32)) ++
  caps.flatMap (fun e => one 2 e (r (Reg.capHsHead e)))

/-- Capture engines of a generation that stream to the host. -/
def Snap.streams (g : Snap) : List Nat :=
  (List.range 4).filter (fun c => match (sget g.eng.cap c CapEng.zero).desc with
    | some d => natField d.flags 2 2 == 2
    | none => false)

/-- A record's stamp is known and not later than `last`. -/
def JRec.stamped (r : JRec) (last : Nat) : Bool := r.done && decide (r.cyc.toNat ≤ last)

/-- The JOURNAL section: what was accepted after the generation. What has not taken effect by REPLAY_END is stamped with the
cycle after it (log entry 101). The PAD records of the ring stay behind. -/
def jrnlSect (g : Snap) (js : List JRec) (last : Nat) (partner : Bool) : Bytes :=
  (js.filter (fun r => r.conf && r.typ != 10 && (decide (g.mark ≤ r.jseq) || !g.jdone.contains r.jseq))).flatMap
    (fun r => ({ r with cyc := if r.stamped last then r.cyc else BitVec.ofNat 64 (last + 1) } : JRec).bytes partner)

/-- An imported record (R371): one stamped after REPLAY_END is still to take effect, an input slice at a boundary of its
channel's domain, another record at the first boundary. -/
def Half.imported (x : Half) (last : Nat) (r : JRec) : JRec :=
  { r with
    done := r.stamped last
    dom := match r.body with
      | .inputBits 1 .. => some (x.chDom r.src)
      | _ => none }

/-! ## The export (R369, R370) -/

/-- What an export takes of one half: whose it is, its generation, its journal, its registers, and whether they are the
mirrored ones. -/
structure ExportPart where
  half   : HalfId
  gen    : Snap
  jrnl   : List JRec
  regs   : SMap Word
  mirror : Bool

/-- The parts of an export (R369): in JOINED both halves', from own and mirrored copies. -/
def State.exportParts (s : State) (h : HalfId) (partner : Bool) : Option (List ExportPart) :=
  let x := s.half h
  let own : Option ExportPart := x.asr.gens.head?.map (fun g => ⟨h, g, x.asr.journal, x.regs, false⟩)
  let other : Option ExportPart := x.asr.mGens.head?.map (fun g => ⟨otherHalf h, g, x.asr.mJrnl, x.asr.mRegs, true⟩)
  if x.run.mode = .joined then
    match own, other with
    | some a, some b => some [a, b]
    | _, _ => none
  else (if partner then other else own).map (fun p => [p])

/-- The last cycle to replay of a part: the half's own, or of mirrored state the last stamp. -/
def ExportPart.last (p : ExportPart) (x : Half) : Nat :=
  if p.mirror then (p.jrnl.filter (fun r => r.conf)).foldl (fun m r => max m r.cyc.toNat) p.gen.cyc.toNat
  else if x.asr.replay.isSome then x.reg64 Reg.asrReplayEndLo Reg.asrReplayEndHi
  else (x.run.cyc - 1#64).toNat

/-- The last accepted ASEQ of a part. -/
def ExportPart.aseq (p : ExportPart) : Nat :=
  p.jrnl.foldl (fun m r => match r.body with
    | .sqEntry _ a .. => if r.conf then max m a else m
    | _ => m) p.gen.txe.aseq

/-- A section table entry and its body, placed from `off` up. -/
def placeSects : Nat → List (Nat × Nat × Bytes) → Bytes × Bytes
  | _, [] => ([], [])
  | off, (typ, half, b) :: l =>
    let pad := zeros ((64 - b.length % 64) % 64)
    let r := placeSects (off + b.length + pad.length) l
    (leBytes 2 typ ++ leBytes 1 half ++ leBytes 1 0xFF ++ zeros 4 ++ leBytes 8 off ++ leBytes 8 b.length ++
      leBytes 4 (crc32c b).toNat ++ zeros 4 ++ r.1, b ++ pad ++ r.2)

/-- MODE of an export. -/
def modeNum : Mode → Nat
  | .joined => 0
  | .paired => 1
  | .split => 2

/-- The bytes of an export (R370). -/
def State.exportBytes (s : State) (h : HalfId) (ps : List ExportPart) : Bytes :=
  let x := s.half h
  let last := (ps.map (fun p => p.last x)).foldl max 0
  let sects := ps.flatMap (fun p => [(0x60, halfNum p.half, x.stateSect p.gen),
    (0x61, halfNum p.half, jrnlSect p.gen p.jrnl last p.mirror),
    (0x62, halfNum p.half, hznSect p.regs p.gen.regs p.gen.streams)])
  let first := (64 + 32 * sects.length + 63) / 64 * 64
  let body := placeSects first sects
  let (gen, cyc) := match ps with
    | p :: _ => (p.gen.gen, p.gen.cyc.toNat)
    | [] => (0, 0)
  let img := if ps.head?.any (fun p => p.mirror) then x.asr.mImg else (x.asr.imgCrc, x.asr.buildId)
  let head := leBytes 4 0x584E524C ++ leBytes 2 1 ++ leBytes 1 (x.rfld Reg.nocParam0 0 8) ++ leBytes 1 (modeNum x.run.mode) ++
    leBytes 4 img.1.toNat ++ leBytes 4 gen ++ leBytes 8 cyc ++ leBytes 8 last ++
    leBytes 6 ((ps.map ExportPart.aseq).foldl max 0) ++ leBytes 2 sects.length ++ leBytes 8 img.2.toNat ++ zeros 12
  head ++ leBytes 4 (crc32c head).toNat ++ body.1 ++ zeros (first - 64 - 32 * sects.length) ++ body.2

/-- An export or import ends with a code (R380). -/
def Half.cmdDone (x : Half) (code : Nat) : Half :=
  ({ x with asr := { x.asr with cmd := none } } : Half).setReg Reg.asrCmdStat
    (setFld (setFld (x.reg Reg.asrCmdStat) 1 7 code) 0 1 1)

/-- The code with which an export is refused (R363, R369). -/
def State.exportRefusal (s : State) (h : HalfId) (partner : Bool) : Option Nat :=
  let x := s.half h
  if !(x.run.state == .stopped || x.run.state == .faulted) then some 1
  else match s.exportParts h partner with
    | none => some 0x38
    | some ps =>
      let b := x.rfld Reg.asrXbase 0 16 * 2 ^ 20
      let area := x.rfld Reg.asrAreaBase 0 16 * 2 ^ 20
      if rangesOk [(b, b + (s.exportBytes h ps).length)]
          (x.portRanges ++ x.capRanges 4 ++ [(area, area + x.rfld Reg.asrAreaSize 0 16 * 2 ^ 20)]) then none
      else some 0x3B

/-- A write of `ASR_CMD` (R369, R371, R380): another OP, or a command while one is under way, is ignored. -/
def State.asrCmdWrite (s : State) (h : HalfId) (v : Word) : State :=
  let x := s.half h
  let op := fld v 0 4
  if !wbit v 31 || x.asr.cmd.isSome || !(op == 1 || op == 2) then s
  else
    let begun (p : Bool) : State := s.upd h (fun y => { y with asr := { y.asr with cmd := some (op, p) } })
    if op = 1 then
      match s.exportRefusal h (wbit v 8) with
      | some c => s.upd h (fun y => y.cmdDone c)
      | none => begun (wbit v 8)
    else if x.run.state == .ready then begun false
    else s.upd h (fun y => y.cmdDone 1)

/-- EXPORT (R369, R380). -/
def execAsrExport (h : HalfId) (m : Master) (partner : Bool) (s : State) : Host.Outcome State Fault Refusal :=
  .next (s.byMaster h m (fun s => s.asrCmdWrite h (if partner then 0x80000101#32 else 0x80000001#32)))

/-- IMPORT (R371, R380). -/
def execAsrImport (h : HalfId) (m : Master) (s : State) : Host.Outcome State Fault Refusal :=
  .next (s.byMaster h m (fun s => s.asrCmdWrite h 0x80000002#32))

/-- EXPORT_DONE (R369, R370, R378): the export lies at XBASE_MIB. -/
def execExportDone (h : HalfId) (s : State) : Host.Outcome State Fault Refusal :=
  let x := s.half h
  .next (match x.asr.cmd with
    | some (1, partner) =>
      match s.exportRefusal h partner, s.exportParts h partner with
      | none, some ps =>
        let b := s.exportBytes h ps
        s.upd h (fun y =>
          let z := (y.devWrite .asr (hbmBase + x.rfld Reg.asrXbase 0 16 * 2 ^ 20) b).setReg64 Reg.asrXlenLo Reg.asrXlenHi b.length
          ({ z with asr := { z.asr with xbytes := b } }.cmdDone 0).asrEvt 6)
      | c, _ => s.upd h (fun y => (y.cmdDone (c.getD 0x38)).asrEvt 6)
    | _ => s)

/-! ## The import (R371) -/

/-- Descriptor table entries of the lists a descriptor names (R290). -/
def descLists (d : Bytes) : List Nat :=
  if bn d 0 1 = 2 then
    (if bn d 1 1 = 1 then [] else [bn d 6 2]) ++ (if bn d 1 1 = 2 then [bn d 8 2] else [])
  else []

/-- Consecutive items of a blob of entries, under their indices. -/
def walkParts (d : Bytes) : List Nat → List (Nat × Bytes)
  | [] => []
  | i :: l =>
    let n := 64 * max 1 (descEntries (d.take 64))
    (i, d.take n) :: walkParts (d.drop n) l

/-- The entries of a CONTROL record for ARM, under their indices: the descriptor `idx` and its lists, in table order. -/
def partsOf (idx : Nat) (d : Bytes) : List (Nat × Bytes) :=
  let try_ (o : Nat) : Option (List (Nat × Bytes)) :=
    let e := (d.drop (64 * o)).take 64
    let ps := walkParts d (sortKey (fun n => n) (idx :: descLists e))
    if (ps.flatMap (fun p => p.2)).length = d.length ∧ ps.any (fun p => p.1 == idx && p.2.take 64 == e) then some ps else none
  ((List.range (d.length / 64)).findSome? try_).getD []

/-- The body of a record from its bytes (R347). -/
def jbodyOf (typ src : Nat) (b : Bytes) : Option JBody :=
  match typ with
  | 1 => some (.sqEntry src (leAt b 0 6) (leAt b 8 2) (leAt b 10 2) (leAt b 12 1) ((b.drop 16).take 64)
      ((b.drop 80).take (sqLen ((b.drop 16).take 64))))
  | 2 => some (.engine (leAt b 0 1) (leAt b 2 2))
  | 3 => some (.extEdge (leAt b 0 1 == 1))
  | 4 => some (.dispatch (leAt b 0 1 == 1) (BitVec.ofNat 64 (leAt b 8 8)))
  | 5 => some (.xtSample ⟨BitVec.ofNat 8 (leAt b 0 1), BitVec.ofNat 8 (leAt b 1 1), BitVec.ofNat 4 (leAt b 2 1)⟩)
  | 6 => some (.inputBits (leAt b 0 1) (leAt b 1 1) (leAt b 2 1) (leAt b 3 1) (leAt b 8 ((leAt b 3 1 + 7) / 8)))
  | 7 => some (.control (leAt b 0 1) (leAt b 2 2) false (partsOf (leAt b 2 2) ((b.drop 8).take (64 * leAt b 4 2))))
  | 8 => some (.defer (leAt b 0 6))
  | 9 => some (.mark (leAt b 0 4) (natBit (leAt b 4 4) 0))
  | _ => none

/-- The records of a JOURNAL section, by fuel; none where one fails its check. -/
def jrnlOf : Nat → Bytes → Option (List JRec)
  | _, [] => some []
  | 0, _ => none
  | n + 1, b =>
    let len := leAt b 2 2
    let r := b.take len
    if len < 24 ∨ len % 8 ≠ 0 ∨ b.length < len ∨ (crc32c (r.take 12 ++ zeros 4 ++ r.drop 16)).toNat ≠ leAt b 12 4 then none
    else match jrnlOf n (b.drop len) with
      | none => none
      | some l =>
        if leAt b 0 1 = 10 then some l
        else match jbodyOf (leAt b 0 1) (leAt b 4 2) (r.drop 24) with
          | some body => some (⟨leAt b 6 6, leAt b 4 2, BitVec.ofNat 64 (leAt b 16 8), none, 0, true, true, false, false, body⟩ :: l)
          | none => none

/-- The blocks of a STATE section, by fuel: kind, tile and contents. -/
def stateBlocks : Nat → Bytes → Option (List (Nat × Nat × Bytes))
  | _, [] => some []
  | 0, _ => none
  | n + 1, b =>
    let len := leAt b 8 8
    if b.length < 16 + len then none
    else (stateBlocks n (b.drop (16 + len))).map (fun l => (leAt b 0 2, leAt b 2 1, (b.drop 16).take len) :: l)

/-- The bits of a KIND 2 block go back into a tile's registers. -/
def Half.putRegBits (x : Half) (n : Nat) (b : Bytes) : Half :=
  let bit (i : Nat) : Bool := ((b.getD (i / 8) 0#8).getLsbD (i % 8))
  let l := if n % 8 < 6 then 8 else 0
  let put (m : SMap DstReg) (lo count at_ : Nat) : SMap DstReg :=
    (List.range count).foldl (fun m i =>
      sput m (n * 2048 + lo + i) DstReg.zero (if bit (at_ + i) then ⟨true, true, 0⟩ else DstReg.zero)) m
  let p0 := 1056 + l
  let dst := put (put (put (put x.ar.dst 0 1024 0) 0x680 16 1024) 0x690 l 1056) 0x600 128 (p0 + 616)
  let dst := (List.range 4).foldl (fun m p =>
    put (put m (0x440 + 128 * p) 26 (p0 + 154 * p)) (0x400 + 128 * p) 64 (p0 + 154 * p + 26)) dst
  { x with ar := { x.ar with
    dst := dst
    brin := (List.range 16).foldl (fun m k => sput m (n * 16 + k) false (bit (1040 + k))) x.ar.brin
    rdata := (List.range 4).foldl (fun m p =>
      sput m (n * 4 + p) 0#64 ((List.range 64).foldl (fun v i =>
        if bit (p0 + 154 * p + 90 + i) then v ||| (1#64 <<< i) else v) 0#64)) x.ar.rdata } }

/-- One state block goes back into a half. -/
def Half.putBlock (x : Half) (kind tile : Nat) (b : Bytes) : Half :=
  match kind with
  | 1 =>
    (((x.attrSlots 1).filter (fun p => p.1 / 1024 == tile)).zipIdx).foldl (fun y (e : (Nat × Nat) × Nat) =>
      y.setSlot e.1.1 e.1.2 ((b.getD (e.2 / 8) 0#8).getLsbD (e.2 % 8))) x
  | 2 => x.putRegBits tile b
  | 3 => x.putBytes (bankAddr tile) b
  | 4 => x.putBytes (hbmBase + leAt b 0 8) (b.drop 8)
  | _ => x

/-- The generation that STATE blocks hold, over a half into which the image is loaded; none where the engine block cannot
be read. -/
def Half.snapOf (x : Half) (gen : Nat) (cyc : DWord) (bs : List (Nat × Nat × Bytes)) : Option Snap :=
  let y := bs.foldl (fun y b => y.putBlock b.1 b.2.1 b.2.2) x
  match (bs.find? (fun b => b.1 == 5)).bind (fun b => Config.engineOf EngBlock b.2.2) with
  | none => none
  | some e =>
    let mem := e.sp.foldl (fun m (c : Host.Cell) => wrByte m c.1 c.2)
      (keepKeys (fun a => !(decide (spAddr 1 ≤ a) && decide (a < spAddr 3))) y.mem)
    some { gen := gen, cyc := cyc, vt := e.vt, pend := e.pend, ext := e.ext, dec := e.dec, stall := e.stall, rest := e.rest
           ar := y.ar, mem := mem, regs := e.regs, txe := e.txe, eng := e.eng, cseq := e.cseq, mark := e.mark, jdone := e.jdone }

/-- The horizons of a HORIZON section. -/
def Half.putHzn (x : Half) : Nat → Bytes → Half
  | 0, _ => x
  | n + 1, b =>
    if b.length < 16 then x
    else
      let v := leAt b 8 8
      let k := leAt b 1 1
      let y := match leAt b 0 1 with
        | 0 => x.setReg64 (Reg.asrCqHznLo (k % 64)) (Reg.asrCqHznHi (k % 64)) v
        | 1 => x.setReg64 (Reg.asrDpHznLo k) (Reg.asrDpHznHi k) v
        | 2 => x.setReg (Reg.capHsHead (k % 4)) (BitVec.ofNat 32 v)
        | _ => x
      y.putHzn n (b.drop 16)

/-- An import as read at XBASE_MIB: the header and the sections: type, half, body and whether the CRC holds. -/
structure Import where
  head  : Bytes
  sects : List (Nat × Nat × Bytes × Bool)

/-- Read an export at XBASE_MIB. -/
def Half.readExport (x : Half) : Import :=
  let b := x.rfld Reg.asrXbase 0 16 * 2 ^ 20
  let bytes (o n : Nat) : Bytes := rdBytes x.soundMem (hbmBase + b + o) (if b + o + n ≤ 2 * stackBytes then n else 0)
  let head := bytes 0 64
  { head := head
    sects := (List.range (leAt head 0x26 2)).map (fun i =>
      let e := bytes (64 + 32 * i) 32
      let body := bytes (leAt e 8 8) (leAt e 16 8)
      (leAt e 0 2, leAt e 2 1, body, (crc32c body).toNat == leAt e 24 4 && leAt e 8 8 % 64 == 0 && body.length == leAt e 16 8)) }

/-- What reading an export of HBM leaves (R239): its table and its sections. -/
def Half.noteExport (x : Half) (im : Import) : Half :=
  let b := hbmBase + x.rfld Reg.asrXbase 0 16 * 2 ^ 20
  let n := leAt im.head 0x26 2
  (List.range n).foldl (fun y i =>
    let e := rdBytes x.soundMem (b + 64 + 32 * i) 32
    y.noteReads (b + leAt e 8 8) (leAt e 16 8)) (x.noteReads b (64 + 32 * n))

/-- The sections of a type for a target half: those of the same half in JOINED, else the only ones there are. -/
def Import.sect (im : Import) (typ : Nat) (h : HalfId) : Option Bytes :=
  let joined := leAt im.head 7 1 == 0
  (im.sects.find? (fun c => c.1 == typ && (!joined || c.2.1 == halfNum h))).map (fun c => c.2.2.1)

/-- The checks that concern the header and the sections as a whole (R371). -/
def Import.ok (im : Import) (x : Half) : Bool :=
  let m := leAt im.head 7 1
  im.head.length == 64 && leAt im.head 0 4 == 0x584E524C && leAt im.head 4 2 == 1 &&
  leAt im.head 6 1 == x.rfld Reg.nocParam0 0 8 && leAt im.head 8 4 == x.asr.imgCrc.toNat &&
  (match x.imgMode with
    | .joined => m == 0
    | _ => m == 1 || m == 2) &&
  (crc32c (im.head.take 0x3C)).toNat == leAt im.head 0x3C 4 && im.sects.all (fun c => c.2.2.2)

/-- What an import makes of a target half, where its sections can be read. -/
def Half.import_ (x : Half) (im : Import) : Option Half :=
  match im.sect 0x60 x.self, im.sect 0x61 x.self, im.sect 0x62 x.self with
  | some st, some jr, some hz =>
    match stateBlocks st.length st, jrnlOf jr.length jr with
    | some bs, some js =>
      match x.snapOf (leAt im.head 0x0C 4) (BitVec.ofNat 64 (leAt im.head 0x10 8)) bs with
      | none => none
      | some g =>
        let y := x.setReg64 Reg.asrReplayEndLo Reg.asrReplayEndHi (leAt im.head 0x18 8)
        let y := (y.putHzn hz.length hz).setRBit Reg.asrCtrl 0 true
        let y := { y with asr := { y.asr with
          gens := [g], journal := js.map (fun r => x.imported (leAt im.head 0x18 8) r)
          jseq := js.foldl (fun m (r : JRec) => max m r.jseq) 0
          jpos := js.foldl (fun m (r : JRec) => m + r.len) 0 % max 1 x.jSize, waiting := [], gates := [] } }
        let y := (List.range 64).foldl (fun (y : Half) q => y.setReg (Reg.txeSqTail q) (sget g.regs (Reg.txeSqTail q) 0#32)) y
        let z := ((y.restoreGen g).showGens).gaveSeq (leAt im.head 0x20 6)
        some (({ z with asr := { z.asr with st := .suspended, active := false, landed := true } } : Half).enter .stopped)
    | _, _ => none
  | _, _, _ => none

/-- IMPORT_DONE (R371, R378): the state is restored, or a check has failed and nothing changes. -/
def execImportDone (h : HalfId) (s : State) : Host.Outcome State Fault Refusal :=
  let x := s.half h
  .next (match x.asr.cmd with
    | some (2, _) =>
      let im := x.readExport
      let s := s.upd h (fun y => y.noteExport im)
      let u := s.takeMode h
      let one (k : HalfId) : Option Half := if im.ok (u.half k) && (u.half k).run.state == .ready then (u.half k).import_ im else none
      let end_ (t : State) (c : Nat) : State := t.upd h (fun y => (y.cmdDone c).asrEvt 7)
      if s.joint x.imgMode then
        match one .h0, one .h1 with
        | some a, some b =>
          let t := { s with h0 := a, h1 := b }
          end_ ((t.mirrorAsr .h0).mirrorAsr .h1) 0
        | _, _ => end_ s 0x3A
      else match one h with
        | some a => end_ ((s.setHalf h a).mirrorAsr h) 0
        | none => end_ s 0x3A
    | _ => s)

end Sys2Proof.Machine
end

