-- ==== Sys2Proof/Machine/Bus.lean ====
section
/-!
DEFINITION. Machine/Bus.lean: accesses of the masters: the address map (R42 to R51), registers as they are read and
written (R15 to R18), scratchpads, banks, HBM and alias windows (R230 to R239), requests of the host (R473 to R476), and
the commands REGISTER_WRITE, MEMORY_READ, MEMORY_WRITE, the alias writes, HOST_REQUEST, FABRIC_HBM_ACCESS and
CTRL_ACCESS.
-/

namespace Sys2Proof.Machine

/-! ## Registers as they are read -/

/-- The low and the high word of a 64-bit value. -/
def loWord (v : Nat) : Word := BitVec.ofNat 32 v
def hiWord (v : Nat) : Word := BitVec.ofNat 32 (v / 2 ^ 32)

/-- The virtual time of the decided next tick, or the current one (R200, R214). -/
def Half.nextVt (x : Half) : DWord :=
  match x.run.decided with
  | some d => d.vt
  | none => x.run.vt

/-- EXEC_STATE (R193). -/
def ExecState.code : ExecState → Nat
  | .halted => 0 | .exec => 1 | .wait => 2 | .fault => 3

/-- `SEQ_STATUS` (R205); LEAD shows while an image for JOINED or PAIRED is loaded. -/
def Half.seqStatus (x : Half) : Word :=
  BitVec.ofNat 32 (x.run.state.code * 2 ^ 20 + modeNum x.run.mode * 2 ^ 18 + x.seq.exec.code * 2 ^ 16 +
    bitNat (x.run.lead && x.run.loaded.isSome && x.run.loaded != some .split) * 2 ^ 15 + bitNat x.run.throttled * 2 ^ 14 +
    x.seq.pc.toNat)

/-- `EDG_STATUS` (R214). -/
def Half.edgStatus (x : Half) : Word :=
  BitVec.ofNat 32 ((x.run.pend.filter (fun (e : Nat × Option PendEdge) => e.2.isSome)).length % 256 * 2 ^ 8 +
    bitNat (x.run.state == .running && x.run.idle.isSome) * 2 ^ 7 + x.extDepth % 128)

/-- A status register of an engine: STATE and TSTATE show the engine (R333). -/
def Half.engStat (x : Half) (k : EngKind) (e : Nat) : Word :=
  setFld (setFld (x.reg (statReg k e)) 28 4 (x.engSt k e).code) 24 4 (if k = .trigger then (x.trg e).tstate else 0)

/-- The trigger, capture and playback registers that show the engines (R333 to R336); `o` is the offset in the block. -/
def Half.trgView (x : Half) (o : Nat) : Option Word :=
  let e := o / 0x40
  if 0x100 ≤ o then none
  else match o % 0x40 with
  | 0x04 => some (x.engStat .trigger e)
  | 0x10 => some (loWord (x.trg e).cnt0)
  | 0x14 => some (loWord (x.trg e).cnt1)
  | _ => none

def Half.capView (x : Half) (o : Nat) : Option Word :=
  let c := o / 0x80
  let q := x.cap c
  let armed (v : Nat) : Nat := if q.desc.isSome then v else 0
  let trig := armed ((q.trigCyc.map (fun t => t.toNat)).getD (2 ^ 64 - 1))
  -- after a record that ends with the ring the next one lies at its start (R307)
  let wptr := if q.desc.any (fun d => d.regSize == q.wptr) then 0x8000 else q.wptr
  let first := armed ((q.ring.head?.map (fun r => r.off)).getD wptr)
  match o % 0x80 with
  | 0x04 => some (x.engStat .capture c)
  | 0x08 => some (loWord q.preEff)
  | 0x0C => some (loWord q.postEff)
  | 0x10 => some (loWord trig)
  | 0x14 => some (hiWord trig)
  | 0x18 => some (loWord (armed wptr))
  | 0x1C => some (hiWord (armed wptr))
  | 0x20 => some (loWord first)
  | 0x24 => some (hiWord first)
  | 0x30 => some (loWord q.gaps)
  | 0x34 => some (hiWord q.gaps)
  | 0x3C => some (loWord q.hsTail)
  | _ => none

def Half.plyView (x : Half) (o : Nat) : Option Word :=
  let p := o / 0x40
  match o % 0x40 with
  | 0x04 => some (x.engStat .playback p)
  | 0x08 => some (loWord (x.ply p).count)
  | 0x0C => some (hiWord (x.ply p).count)
  | 0x10 => some (loWord (x.ply p).pass)
  | _ => none

/-- `LNK_TM_BSTAT_b` and `LNK_TM_BMEAS_b` (R165). -/
def Half.bundleView (x : Half) (b r : Nat) : Option Word :=
  let u := x.bun b
  match r with
  | 0x04 => some (BitVec.ofNat 32 (u.st.code * 2 ^ 28 + u.frozen % 1024 * 2 ^ 18 + u.laneFlt.toNat * 2 ^ 10 +
      bitNat x.refLock * 2 ^ 9 + bitNat u.degraded * 2 ^ 8 + u.effE % 128 * 2))
  | 0x0C => some (BitVec.ofNat 32 (u.dPeer % 1024 * 2 ^ 16 + u.dOwn % 1024))
  | _ => none

/-- A register that shows structured state, by block and offset in the block; none for one that `regs` holds. -/
def State.viewReg (s : State) (h : HalfId) (off : Nat) : Option Word :=
  let x := s.half h
  let o := off % 0x100000
  match off / 0x100000 with
  | 0 => if off = Reg.rstSwrst then
      some (BitVec.ofNat 32 ((List.range 22).foldl (fun a i => if swrstDead i then a else a + bitNat (x.rbit off i) * 2 ^ i) 0))
    else none
  | 5 =>
    if off = Reg.seqStatus then some x.seqStatus
    else if off = Reg.seqCycLo then some (loWord x.run.cyc.toNat)
    else if off = Reg.seqCycHi then some (hiWord x.run.cyc.toNat)
    else if off = Reg.seqVtLo then some (loWord x.run.vt.toNat)
    else if off = Reg.seqVtHi then some (hiWord x.run.vt.toNat)
    else none
  | 6 =>
    if off = Reg.edgStatus then some x.edgStatus
    else if off = Reg.edgNextvtLo then some (loWord x.nextVt.toNat)
    else if off = Reg.edgNextvtHi then some (hiWord x.nextVt.toNat)
    else if 0x1000 ≤ o ∧ o < 0x2000 ∧ o % 0x20 = 0x14 then
      some (setFld (x.reg off) 16 8 (domOf x.imgMode h ((o - 0x1000) / 0x20)))
    else none
  | 7 =>
    if off = Reg.txeStatus then some (BitVec.ofNat 32 (bitNat x.accepting * 2 ^ 14 + x.inFlight))
    else if 0x1000 ≤ o ∧ o < 0x2000 ∧ o % 0x40 = 0x28 then
      some (setFld (x.reg off) 16 13 (x.fedBy ((o - 0x1000) / 0x40)))
    else none
  | 8 => x.trgView o
  | 9 => x.capView o
  | 10 => if off = Reg.asrStatus then some (setFld (x.reg off) 28 4 x.asr.st.code) else none
  | 11 => if off = Reg.xchBrgStatus then some (setFld (x.reg off) 3 1 (bitNat s.refSame)) else none
  | 13 => if 0x100 ≤ o ∧ o < 0x300 ∧ o % 0x10 = 8 then
      some (setFld (x.reg off) 16 7 (x.chan ((o - 0x100) / 0x10)).queue.length) else none
  | 14 => if off = Reg.pinDataSet 0 ∨ off = Reg.pinDataClr 0 then some (x.reg (Reg.pinData 0))
    else if off = Reg.pinDataSet 1 ∨ off = Reg.pinDataClr 1 then some (x.reg (Reg.pinData 1))
    else none
  | 15 =>
    if off = Reg.lnkTmLscLo then some (loWord x.lscNat)
    else if off = Reg.lnkTmLscHi then some (hiWord x.lscNat)
    else if 0x1100 ≤ o ∧ o < 0x1280 then x.bundleView ((o - 0x1100) / 0x20) (o % 0x20)
    else none
  | 16 => if off = Reg.pciHeld then some (BitVec.ofNat 32 (min x.pci.held.length 0xFFFF)) else none
  | 19 => if off = Reg.trcSrcEn ∧ ¬ (x.debugOpen = true ∧ natBit x.debugScope 3 = true) then some (x.reg off &&& 0xFFFFFFF7#32) else none
  | 21 => x.plyView o
  | _ => none

/-- What a read of a register returns (R17, R18). -/
def State.regValue (s : State) (h : HalfId) (off : Nat) : Word := (s.viewReg h off).getD ((s.half h).reg off)

/-- What a register read returns and leaves: a read of LO latches HI, which the next read of HI returns; the stamp
queues and the PTP time latch with their first word (R489, R512). -/
def State.regRead (s : State) (h : HalfId) (off : Nat) : Word × State :=
  let x := s.half h
  if off = Reg.ptmTime 0 then let (v, y) := x.ptmTimeRead; (v, s.setHalf h y)
  else if off = Reg.ptmTxtsId then let (v, y) := x.txtsRead; (v, s.setHalf h y)
  else if off = Reg.ptmTcapId 0 then let (v, y) := x.tcapRead 0; (v, s.setHalf h y)
  else if off = Reg.ptmTcapId 1 then let (v, y) := x.tcapRead 1; (v, s.setHalf h y)
  else match regAt off, off % 0x100000 / 4 with
  | some d, _ =>
    if d.latch then
      (s.regValue h off, s.upd h (fun y => { y with latch := sput y.latch (off + 4) 0#32 (s.regValue h (off + 4)) }))
    else match regAt (off - 4) with
      | some e => if e.latch && decide (4 ≤ off) then (sget x.latch off 0#32, s) else (s.regValue h off, s)
      | none => (s.regValue h off, s)
  | none, _ => (0#32, s)

/-! ## Registers as they are written -/

/-- The pending, enable and action bits that belong to events 0 to 280 (R198, R212). -/
def evtMask (off : Nat) : Word :=
  if off = Reg.seqEvtPend 8 ∨ off = Reg.seqEvtEn 8 then 0x01FFFFFF#32
  else if off = Reg.seqEvtAct 17 then 0x0003FFFF#32
  else if (Reg.seqEvtPend 8 < off ∧ off < Reg.seqEvtEn 0) ∨ (Reg.seqEvtEn 8 < off ∧ off < Reg.seqEvtAct 0) ∨ Reg.seqEvtAct 17 < off then
    0#32
  else 0xFFFFFFFF#32

/-- A write whose bits do what their access types say and nothing else (R17). -/
def Half.plainWrite (x : Half) (off : Nat) (v : Word) : Half :=
  match regAt off with
  | some d => x.setReg off (regWritten d (x.rbit Reg.secCtrl 0) (x.reg off) v)
  | none => x

/-- The master of a mailbox instance (R565); the steward stands for the management I²C target. -/
def mbxMaster (k : Nat) : Master :=
  match k with
  | 0 => .host
  | 1 => .seq
  | _ => .stw

/-- Register accesses that complete with an error (R49, R214, R217, R234, R395, R476, R545, R565, R572, R573, R578). -/
def Half.regRefused (x : Half) (m : Master) (off : Nat) (write : Option Word) : Bool :=
  let o := off % 0x100000
  match off / 0x100000 with
  | 0 => match write with
    | some v => (off == Reg.rstWdog && m != .stw) || (off == Reg.rstSwrst && (!swrstMaster m || (wbit v 31 && m != .stw)))
    | none => false
  | 3 => decide (o < 0xF00) && mbxMaster (o / 0x400) != m
  | 4 => write.isSome && m != .stw
  | 6 => write.isSome && decide (0x1000 ≤ o) && decide (o < 0x2000) && x.inRun
  | 12 => write.isSome && off == Reg.memSpAcl && m != .stw
  | 13 => write.isSome && off == Reg.afbCtrl && !afbMaster m
  | 16 => write.isSome && off == Reg.pciCtrl && m != .stw
  | 19 => write.isSome && (off == Reg.trcStwLog || off == Reg.trcStwEnd) && m != .stw
  | b => write.isSome && decide (32 ≤ b) && decide (o < 0x80000) && x.inRun

/-- A write in the STW block (R565, R576): a GO gives the command; CMD keeps the command in progress. -/
def Half.mbxWrite (x : Half) (off : Nat) (v : Word) : Half :=
  let k := off % 0x100000 / 0x400
  if off = Reg.stwMbxCtrl k then
    let y := if x.rbit (Reg.stwMbxStat k) 0 then x else x.setRFld off 0 8 (fld v 0 8)
    if wbit v 31 then y.mbxGo k else y
  else if off = Reg.stwMbxIrq k ∧ k ≠ 0 then x.plainWrite off (v &&& 0xFF#32)
  else x.plainWrite off v

/-- A write in the TXE block (R260, R283 to R289). -/
def State.txeRegWrite (s : State) (h : HalfId) (off : Nat) (v : Word) : State :=
  let x := s.half h
  let o := off % 0x100000
  let q := (o - 0x1000) / 0x40
  let set : State := s.txe h (fun y => y.plainWrite off v)
  if off = Reg.txeAbort then s.txeAbort h v
  else if off = Reg.txeErr then
    s.txe h (fun y => if wbit v 3 then (y.plainWrite off v).setRFld off 16 8 0 else y.plainWrite off v)
  else if 0x1000 ≤ o ∧ o < 0x2000 then
    match o % 0x40 with
    | 0x00 | 0x04 => if x.rbit (Reg.txeSqCfg q) 31 then s else set
    | 0x08 => s.txe h (fun y => y.sqCfgWrite q v)
    | 0x0C => s.txe h (fun y => y.ring q (fld v 0 16))
    | 0x14 | 0x18 => if x.rbit (Reg.txeCqCfg q) 31 then s else set
    | 0x1C => s.txe h (fun y => y.cqCfgWrite q v)
    | 0x20 => s.cqHead h q (fld v 0 16)
    | _ => set
  else if 0x6000 ≤ o then
    if x.rbit off 31 then s.txe h (fun y => y.setRBit off 31 (wbit v 31)) else set
  else set

/-- A write in the PIN block (R430 to R456). -/
def State.pinRegWrite (s : State) (h : HalfId) (off : Nat) (v : Word) : State :=
  let o := off % 0x100000
  let on (f : Half → Half) : State := s.upd h f
  if off = Reg.pinDataSet 0 then on (fun y => y.dataSet false v)
  else if off = Reg.pinDataSet 1 then on (fun y => y.dataSet true v)
  else if off = Reg.pinDataClr 0 then on (fun y => y.dataClr false v)
  else if off = Reg.pinDataClr 1 then on (fun y => y.dataClr true v)
  else if off = Reg.pinIrqStat 0 then on (fun y => y.pinIrqStatWrite 0 v)
  else if off = Reg.pinIrqStat 1 then on (fun y => y.pinIrqStatWrite 1 v)
  else if off = Reg.pinBankVio then on (fun y => y.bankVioWrite v)
  else if off = Reg.pinDsnIn then s.dsnInWrite h v
  else if off = Reg.pinDsnOut then s.dsnOutWrite h v
  else if 0x200 ≤ o ∧ o < 0x280 then on (fun y => y.oconfWrite ((o - 0x200) / 4) v)
  else if (0x100 ≤ o ∧ o < 0x200) ∨ 0x1000 ≤ o then on (fun y => y.pinWrite o v)
  else on (fun y => y.plainWrite off v)

/-- A write in the LNK block (R163, R165, R469 to R472, R486). -/
def State.lnkRegWrite (s : State) (h : HalfId) (off : Nat) (v : Word) : State :=
  let o := off % 0x100000
  let on (f : Half → Half) : State := s.upd h f
  if off = Reg.lnkTmModid then s.both (fun y => y.setReg off v)
  else if o < 0x600 ∧ o % 0x20 = 0 then on (fun y => y.laneWrite (o / 0x20) v)
  else if 0x800 ≤ o ∧ o < 0x830 then on (fun y => y.quadWrite ((o - 0x800) / 4) v)
  else if 0x1100 ≤ o ∧ o < 0x1280 ∧ o % 0x20 = 0 then on (fun y => y.bundleWrite ((o - 0x1100) / 0x20) v)
  else if off = Reg.lnkMeCfg then on (fun y => y.meCfgWrite v)
  else if [Reg.lnkMeRxBase, Reg.lnkMeRxSize, Reg.lnkMeRxRptr, Reg.lnkMeTxBase, Reg.lnkMeTxSize, Reg.lnkMeTxWptr].contains off then
    on (fun y => y.meRingWrite off v)
  else on (fun y => y.plainWrite off v)

/-- A write in the PTM block (R509 to R513). -/
def State.ptmRegWrite (s : State) (h : HalfId) (off : Nat) (v : Word) : State :=
  let x := s.half h
  let o := off % 0x100000
  let on (f : Half → Half) : State := s.upd h f
  if off = Reg.ptmCtrl then on (fun y => y.ptmCtrlWrite v)
  else if off = Reg.ptmDsn then s.ptmDsnWrite h v
  else if 0x100 ≤ o ∧ o < 0x180 then
    let d := (o - 0x100) / 0x40
    if o % 0x40 = 0 then on (fun y => y.domCfgWrite d v)
    else if x.rbit (Reg.ptmDomCfg d) 31 then s
    else on (fun y => y.plainWrite off v)
  else if 0x200 ≤ o ∧ o < 0x280 then
    let k := (o - 0x200) / 0x20
    if o % 0x20 = 0 then on (fun y => y.tpoCtrlWrite k v)
    else if x.tpoArmed k then s
    else on (fun y => y.plainWrite off v)
  else on (fun y => y.plainWrite off v)

/-- A write in the TRC block (R535 to R540, R545). -/
def Half.trcRegWrite (x : Half) (off : Nat) (v : Word) : Half :=
  let locked := x.rbit Reg.trcCtrl 31
  if off = Reg.trcCtrl then x.trcCtrlWrite v
  else if off = Reg.trcSrcEn then x.srcEnWrite v
  else if off = Reg.trcEmCtrl then x.trcEmWrite v
  else if off = Reg.trcStwLog then x.stwLog v
  else if off = Reg.trcStwEnd then x.stwEnd
  else if locked && [Reg.trcTxeCfg, Reg.trcHbmBase, Reg.trcHbmSize, Reg.trcEmS 0, Reg.trcEmS 1, Reg.trcEmS 2, Reg.trcEmS 3].contains off then x
  else x.plainWrite off v

/-- A write in the AFB block (R394, R415, R419 to R426). -/
def Half.afbRegWrite (x : Half) (off : Nat) (v : Word) : Half :=
  let o := off % 0x100000
  -- a queue pair keeps its binding while one of its rings is enabled
  let bound (q0 : Nat) : Word := BitVec.ofNat 32 ((List.range 32).foldl (fun a i =>
    if x.rbit (Reg.txeSqCfg (q0 + i)) 31 || x.rbit (Reg.txeCqCfg (q0 + i)) 31 then a + 2 ^ i else a) 0)
  let bind (q0 : Nat) : Half := x.setReg off ((x.reg off &&& bound q0) ||| (v &&& ~~~(bound q0)))
  if off = Reg.afbCtrl then x.afbCtrlWrite v
  else if off = Reg.afbEvt then x.afbEvtWrite v
  else if off = Reg.afbLlDisLo then x.llDisWrite false v
  else if off = Reg.afbLlDisHi then x.llDisWrite true v
  else if off = Reg.afbTxqLo then bind 0
  else if off = Reg.afbTxqHi then bind 32
  else if 0x60 ≤ o ∧ o < 0x70 then x.oscWrite ((o - 0x60) / 4) v
  else if off = Reg.afbFlCmd then (if wbit v 31 && fld v 0 2 != 0 then x.flashCmd (fld v 0 2) else x)
  else x.plainWrite off v

/-- A write in the MEM block (R46, R234, R240, R246, R250). -/
def Half.memRegWrite (x : Half) (off : Nat) (v : Word) : Half :=
  if off = Reg.memMarchCtrl then
    let y := x.marchStart v
    if wbit v 1 && x.marchBusy then { y with mt := { y.mt with ending := true } } else y
  else if off = Reg.memBgtStatus then x.bgtClear v
  else if off = Reg.memBgtCtrl then x.bgtEnable v
  else if off = Reg.memErrStatus then x.memErrClear v
  else x.plainWrite off v

/-- A register write that is not refused, by block (R43). -/
def State.regWrite (s : State) (h : HalfId) (m : Master) (off : Nat) (v : Word) : State :=
  let x := s.half h
  let o := off % 0x100000
  let on (f : Half → Half) : State := s.upd h f
  let plain : State := s.upd h (fun y => y.plainWrite off v)
  match off / 0x100000 with
  | 0 => if off = Reg.rstSwrst then on (fun y => y.swrstBy m v) else if off = Reg.rstWdog then on (fun y => y.wdogWrite v) else plain
  | 1 => if off = Reg.clkRefCfg then on (fun y => y.clkCfgWrite v) else plain
  | 3 => on (fun y => y.mbxWrite off v)
  | 5 =>
    if off = Reg.seqCtrl then s.seqCtrlWrite h v
    else if off = Reg.seqRuncfg ∧ x.inRun = true then s
    else if off = Reg.seqFault then on (fun y => y.seqFaultClear v)
    else if 0x100 ≤ o then (on (fun y => (y.plainWrite off (v &&& evtMask off)).waiteCheck)).settle
    else plain
  | 6 =>
    if off = Reg.edgExtgap ∧ x.inRun = true then s
    else if 0x1000 ≤ o ∧ o < 0x2000 then on (fun y => y.edgDescWrite m ((o - 0x1000) / 0x20) (o % 0x20 / 4) v)
    else plain
  | 7 => s.txeRegWrite h off v
  | 8 => if o < 0x100 ∧ o % 0x40 = 0 then (s.engCtlWrite h .trigger (o / 0x40) v).settle else plain
  | 9 => if o % 0x80 = 0 then (s.engCtlWrite h .capture (o / 0x80) v).settle else plain
  | 10 =>
    if off = Reg.asrCtrl then (s.asrCtrlWrite h v).settle
    else if off = Reg.asrCmd then s.asrCmdWrite h v
    else if x.asr.active && [Reg.asrAreaBase, Reg.asrAreaSize, Reg.asrJsize, Reg.asrUndo, Reg.asrXbase].contains off then s
    else plain
  | 11 =>
    if off = Reg.xchFaultStatus then on (fun y => y.xchClear v)
    else if off = Reg.xchBrgStatus then on (fun y => y.brgClear v)
    else plain
  | 12 => on (fun y => y.memRegWrite off v)
  | 13 => on (fun y => y.afbRegWrite off v)
  | 14 => s.pinRegWrite h off v
  | 15 => s.lnkRegWrite h off v
  | 16 => if off = Reg.pciCtrl then on (fun y => y.hostEnable (wbit v 0)) else plain
  | 17 => s.ptmRegWrite h off v
  | 18 =>
    if off = Reg.nocStatus then on (fun y => y.nocStatusWrite v)
    else if 0x100 ≤ o then
      if o % 0x40 = 0 then on (fun y => y.prbCfgWrite ((o - 0x100) / 0x40) v)
      else if x.rbit (Reg.nocPrbCfg ((o - 0x100) / 0x40)) 31 then s
      else plain
    else plain
  | 19 => on (fun y => y.trcRegWrite off v)
  | 21 => if o % 0x40 = 0 then (s.engCtlWrite h .playback (o / 0x40) v).settle else plain
  | b => if 32 ≤ b ∧ o = 0x80000 then on (fun y => y.bpaClear (b - 32) v) else plain

/-! ## Accesses -/

/-- The endpoint passes on what the host asks while HOST_EN is 1 and the half is not in fallow; the STW block is also
behind BAR4/5, which is always served (R474, R476, R556). -/
def Half.portErr (x : Half) (m : Master) (a : Nat) : Option (BitVec 2) :=
  if m = .host ∧ ¬ (0x90300000 ≤ a ∧ a < 0x90310000) then x.masterErr m else none

/-- A read by a master: STATUS, the bytes, and the machine after it (R42 to R51, R230 to R239, R475). -/
def State.busRead (s : State) (h : HalfId) (m : Master) (a n : Nat) : BitVec 2 × Bytes × State :=
  let x := s.half h
  match x.portErr m a with
  | some st => (st, zeros n, s)
  | none =>
    match x.permit m a n with
    | none => (1#2, zeros n, s)
    | some p =>
      if p.region = .ctl then
        if x.regRefused m (a - 0x90000000) none then (2#2, zeros n, s)
        else let (v, t) := s.regRead h (a - 0x90000000); (0#2, leBytes 4 v.toNat, t)
      else let (st, bs, y) := x.readPackets m p n; (st, bs, (s.setHalf h y).settle)

/-- A write by a master: STATUS and the machine after it. -/
def State.busWrite (s : State) (h : HalfId) (m : Master) (a : Nat) (bs : Bytes) : BitVec 2 × State :=
  let x := s.half h
  match x.portErr m a with
  | some st => (st, s)
  | none =>
    match x.permit m a bs.length with
    | none => (1#2, s)
    | some p =>
      if p.region = .ctl then
        let v := BitVec.ofNat 32 (leNat bs)
        if x.regRefused m (a - 0x90000000) (some v) then (2#2, s) else (0#2, s.regWrite h m (a - 0x90000000) v)
      else let (st, y) := x.writePackets m p bs; (st, (s.setHalf h y).settle)

/-- The STATUS that the endpoint shows for an error: UR, or CA for every other refusal (R475). -/
def hostStatus (m : Master) (st : BitVec 2) : BitVec 2 := if m = .host ∧ st = 3#2 then 2#2 else st

/-- The fabric issues accesses only while logic of it is live (R398). -/
def Half.issues (x : Half) (m : Master) : Bool := m != .afb || x.fab.live != 0

/-- A read command: the answer goes to its master. -/
def State.readCmd (s : State) (h : HalfId) (m : Master) (a n : Nat) : State :=
  if !(s.half h).issues m then s
  else let (st, bs, t) := s.busRead h m a n; t.upd h (fun x => x.readAns m (hostStatus m st) bs)

/-- A write command: an error goes to its master. -/
def State.writeCmd (s : State) (h : HalfId) (m : Master) (a : Nat) (bs : Bytes) : State :=
  if !(s.half h).issues m then s
  else let (st, t) := s.busWrite h m a bs; if st = 0#2 then t else t.upd h (fun x => x.writeErr m (hostStatus m st))

/-! ## The commands -/

/-- REGISTER_WRITE (R15 to R18, R48). -/
def execRegisterWrite (h : HalfId) (m : Master) (addr : BitVec 40) (data : Bytes) (s : State) :
    Host.Outcome State Fault Refusal := .next (s.writeCmd h m addr.toNat data)

/-- MEMORY_READ (R42 to R51, R233, R238, R239). -/
def execMemoryRead (h : HalfId) (m : Master) (addr : BitVec 40) (len : Nat) (s : State) : Host.Outcome State Fault Refusal :=
  .next (s.readCmd h m addr.toNat len)

/-- MEMORY_WRITE (R42 to R51, R230, R233, R238, R239). -/
def execMemoryWrite (h : HalfId) (m : Master) (addr : BitVec 40) (data : Bytes) (s : State) :
    Host.Outcome State Fault Refusal := .next (s.writeCmd h m addr.toNat data)

/-- BIT_SET_ALIAS_WRITE (R235, R236): `addr` lies in the bit-set window. -/
def execBitSetAliasWrite (h : HalfId) (m : Master) (addr : BitVec 40) (data : Bytes) (s : State) :
    Host.Outcome State Fault Refusal :=
  .next (if regionOf addr.toNat data.length = some .setA then s.writeCmd h m addr.toNat data
    else s.upd h (fun x => x.writeErr m 1#2))

/-- BIT_CLEAR_ALIAS_WRITE (R235, R236): `addr` lies in the bit-clear window. -/
def execBitClearAliasWrite (h : HalfId) (m : Master) (addr : BitVec 40) (data : Bytes) (s : State) :
    Host.Outcome State Fault Refusal :=
  .next (if regionOf addr.toNat data.length = some .clrA then s.writeCmd h m addr.toNat data
    else s.upd h (fun x => x.writeErr m 1#2))

/-- FABRIC_HBM_ACCESS (R404, R405): a read takes 64 bytes. -/
def execFabricHbmAccess (h : HalfId) (write : Bool) (addr : BitVec 40) (data : Bytes) (s : State) :
    Host.Outcome State Fault Refusal :=
  .next (if !(s.half h).issues .afb then s
    else if regionOf addr.toNat 1 ≠ some .hbm then s.upd h (fun x => x.readAns .afb 2#2 (if write then [] else zeros 64))
    else if write then s.writeCmd h .afb addr.toNat data else s.readCmd h .afb addr.toNat 64)

/-- The ranges that the control tree carries (R523). -/
def onTree (a : Nat) : Bool :=
  match regionOf a 4 with
  | some .bank | some .sp | some .setA | some .clrA | some .hbm | none => false
  | _ => true

/-- CTRL_ACCESS (R593): the TAP reads or writes one word as a master of the control tree while SCOPE bit 0 is open. -/
def execCtrlAccess (h : HalfId) (write : Bool) (addr : BitVec 40) (v : Word) (s : State) : Host.Outcome State Fault Refusal :=
  .next (if !(s.half h).tapPrivate then s
    else if !onTree addr.toNat then s.upd h (fun x => x.emit (.tdo []))
    else if write then (s.busWrite h .stw addr.toNat (leBytes 4 v.toNat)).2
    else let (_, bs, t) := s.busRead h .stw addr.toNat 4; t.upd h (fun x => x.emit (.tdo bs)))

/-! ## Requests of the host (R474 to R476) -/

/-- A BAR4/5 read of the MSI-X table or its pending bits (R474). -/
def Half.mxRead (x : Half) (o n : Nat) : Option Bytes :=
  if o % 4 ≠ 0 ∨ n % 4 ≠ 0 ∨ n = 0 ∨ 8 < n then none
  else if 0x80000 ≤ o ∧ o + n ≤ 0x81000 then
    some ((List.range (n / 4)).flatMap (fun i => leBytes 4 (x.mxWord ((o - 0x80000) / 4 + i)).toNat))
  else if 0x90000 ≤ o ∧ o + n ≤ 0x90020 then
    some (leBytes n ((List.range (8 * n)).foldl (fun a i => a + bitNat (sget x.pci.mxPend (8 * (o - 0x90000) + i) false) * 2 ^ i) 0))
  else none

/-- A BAR4/5 write of the MSI-X table; a pending message leaves when its Mask bit clears (R478). Pending bits are read-only. -/
def Half.mxWrite (x : Half) (o : Nat) (bs : Bytes) : Option Half :=
  match x.mxRead o bs.length with
  | none => none
  | some _ =>
    if 0x90000 ≤ o then some x
    else some ((List.range (bs.length / 4)).foldl (fun y i =>
      let k := (o - 0x80000) / 4 + i
      let v := BitVec.ofNat 32 (leNat ((bs.drop (4 * i)).take 4))
      ({ y with pci := { y.pci with mxTab := sput y.pci.mxTab k (mxReset k) v } } : Half).unmask (k / 4)) x)

/-- The device address that a BAR offset maps (R474). -/
def barAddr (bar off n : Nat) : Option Nat :=
  match bar with
  | 0 => if off + n ≤ 2 ^ 32 then some off else none
  | 2 => if off + n ≤ 2 ^ 36 then some (hbmBase + off) else none
  | 4 => if off + n ≤ 0x10000 then some (0x90300000 + off) else none
  | _ => none

/-- HOST_REQUEST (R474 to R476): `data` are the bytes of a write, `len` the length of a read. The function answers none while
its link is down, its core is in reset or it is in D3hot. -/
def execHostRequest (h : HalfId) (bar : BitVec 3) (off : BitVec 40) (write : Bool) (len : Nat) (data : Bytes) (s : State) :
    Host.Outcome State Fault Refusal :=
  let x := s.half h
  let n := if write then data.length else len
  .next (if !x.rbit Reg.pciStatus 0 || x.rbit Reg.pciStatus 1 || x.coreHeld then s
    else if bar = 4#3 ∧ 0x80000 ≤ off.toNat then
      (if write then
        match x.mxWrite off.toNat data with
        | some y => s.setHalf h y
        | none => s.upd h (fun x => x.writeErr .host 1#2)
      else
        match x.mxRead off.toNat len with
        | some bs => s.upd h (fun x => x.readAns .host 0#2 bs)
        | none => s.upd h (fun x => x.readAns .host 1#2 []))
    else
      match barAddr bar.toNat off.toNat n, x.masterErr .host with
      | none, _ => if write then s.upd h (fun x => x.writeErr .host 1#2) else s.upd h (fun x => x.readAns .host 1#2 [])
      | some a, some st =>
        if bar = 4#3 then (if write then s.writeCmd h .host a data else s.readCmd h .host a len)
        else if write then s.upd h (fun x => x.writeErr .host st) else s.upd h (fun x => x.readAns .host st [])
      | some a, none => if write then s.writeCmd h .host a data else s.readCmd h .host a len)

end Sys2Proof.Machine
end

