-- ==== Sys2Proof/Machine/Cells.lean ====
section
/-!
DEFINITION. Machine/Cells.lean: fabric logic in real time: cells, flip-flops, RAM blocks, clock nets and long lines (R382 to
R392), the serial controllers (R403) and the lanes' fabric ports (R462, R467). Time goes in half-cycles of the 625 MHz fabric
base clock. What fabric logic does at the other ports of R404 comes as commands (log entry 49).
-/

namespace Sys2Proof.Machine

/-! ## The configuration (R394) -/

/-- A column that some frame configures. -/
def Half.colUsed (x : Half) (c : Nat) : Bool :=
  x.fab.frames.any (fun e => decide (e.1 / 2 ^ 24 ≤ 3) && e.1 / 2 ^ 16 % 256 == c)

/-- The configuration in force; a column with no frame is blank (R399). -/
def Half.netlist (x : Half) : Netlist :=
  let n := fabNetlist x.fab.db x.fab.frames
  { n with cells := keepKeys (fun k => decide (k < 98304) && x.colUsed (k / 1024)) n.cells
           rams := keepKeys (fun k => decide (k < 768) && decide (k / 8 % 3 ≠ 0) && x.colUsed (k / 8)) n.rams }

/-- The half with other cell state. -/
def Half.setCell (x : Half) (c : Cells) : Half := { x with fab := { x.fab with cell := c } }

/-! ## Signals (R382, R386, R388) -/

/-- The place of an output in `Cells.sig`. -/
def outPlace : CellOut → Nat
  | .f => 0
  | .g => 1
  | .sum => 2
  | .qa => 3
  | .qb => 4

/-- An open bit of the fabric: kind and thing, at time `t` (log entry 49). -/
def Half.openFab (x : Half) (k n t : Nat) : Bool := Config.openBit (halfNum x.self) k n t

/-- The value of a wire. -/
def Half.sig (x : Half) (t : Nat) : Sig → Bool
  | .low => false
  | .high => true
  | .cell n o => (sget x.fab.cell.sig n 0#5).getLsbD (outPlace o)
  | .ram n pb i =>
    match sget x.fab.cell.rout (2 * n + bitNat pb) none with
    | some v => natBit v.2 i
    | none => x.openFab 0 (64 * n + 32 * bitNat pb + i) 0
  | .line l => if x.fab.cell.fight.getLsbD l then x.openFab 1 l t else x.fab.cell.line.getLsbD l
  | .net k => x.fab.cell.nets.getLsbD k
  | .fabIn k => x.inFn (0x100 + k)
  | .laneBit l i => ((sget x.fab.cell.lane l LanePort.zero).rx.getD 0#72).getLsbD i
  | .laneValid l => (sget x.fab.cell.lane l LanePort.zero).rx.isSome
  | .laneReady l => (sget x.fab.cell.lane l LanePort.zero).word.isNone
  | .serBit c i => ((sget x.fab.cell.ser c Serial.zero).rx.headD 0#8).getLsbD i
  | .serValid c => !(sget x.fab.cell.ser c Serial.zero).rx.isEmpty
  | .serRoom c => decide ((sget x.fab.cell.ser c Serial.zero).tx.length < 64)
  | .port n => x.openFab 2 n t

/-- The number that a list of wires spells, the first lowest. -/
def Half.sigNum (x : Half) (t : Nat) : List Sig → Nat
  | [] => 0
  | s :: r => bitNat (x.sig t s) + 2 * x.sigNum t r

/-! ## Logic cells (R382) -/

/-- Bit `i5 … i0` of a cell's table, and the bits of its two halves at `i4 … i0`. -/
def Half.tableBits (x : Half) (t : Nat) (c : CellCfg) : Bool × Bool × Bool :=
  let n := x.sigNum t (c.ins.take 6)
  (c.table.getLsbD n, c.table.getLsbD (n % 32), c.table.getLsbD (32 + n % 32))

/-- COUT of a cell (R382): K or (P and CIN) in arithmetic mode; in the others CIN. -/
def Half.cout (x : Half) (t : Nat) (c : CellCfg) (cin : Bool) : Bool :=
  match c.mode with
  | .arith => let b := x.tableBits t c; b.2.2 || (b.2.1 && cin)
  | _ => cin

/-- CIN of cell `i` of a column: the bitstream's for cell 0, then up the chain. -/
def Half.cin (x : Half) (nl : Netlist) (t col : Nat) : Nat → Bool
  | 0 => natBit nl.cin col
  | i + 1 =>
    let b := x.cin nl t col i
    match lookup nl.cells (col * 1024 + i) with
    | some c => x.cout t c b
    | none => b

/-- F, G and SUM of a cell. -/
def Half.cellOut (x : Half) (nl : Netlist) (t n : Nat) (c : CellCfg) : Bool × Bool × Bool :=
  let b := x.tableBits t c
  let f := if c.mode = .whole then b.1 else b.2.1
  (f, c.mode != .whole && b.2.2, f != x.cin nl t (n / 1024) (n % 1024))

/-! ## Flip-flops (R383, R392, R397) -/

/-- GSR: asserted by a load, or in compatibility mode by fabric logic through the GSR cell, in column 0 (R392). -/
def Half.gsrOn (x : Half) (nl : Netlist) (t : Nat) : Bool :=
  x.fab.gsr || (x.rbit Reg.afbStatus 1 && natBit x.fab.live 0 && x.sig t nl.gsr)

/-- The level of a cell's clock, inverted where the cell inverts it. -/
def Half.clkLevel (x : Half) (t : Nat) (k : Clk) (inv : Bool) : Bool :=
  (match k with
    | .net n => x.fab.cell.nets.getLsbD n
    | .wire s => x.sig t s) != inv

/-- The data of a flip-flop. -/
def pickData (f : FfCfg) (o : Bool × Bool × Bool) (i5 : Bool) : Bool :=
  match f.data with
  | .f => o.1
  | .g => o.2.1
  | .sum => o.2.2
  | .i5 => i5

/-- Edges of net `k` that flip-flops leaving hold wait for: the second or the third (R398). -/
def Half.netLeaves (x : Half) (k cols : Nat) : Nat := if x.openFab 3 k cols then 2 else 3

/-- The flip-flops of a column obey a clock: released, GSR long enough gone, and on a global net the edge has come at which they
leave hold (R392, R398). -/
def Half.obeys (x : Half) (col : Nat) (k : Clk) : Bool :=
  natBit x.fab.ffs col && x.fab.cell.quiet == 0 &&
  (match k with
    | .wire _ => true
    | .net n => x.fab.cell.leave.all (fun e => !natBit e.1 col || decide (x.netLeaves n e.1 ≤ sget e.2 n 0)))

/-- What a flip-flop shows without an edge: START_VAL while it is held, FORCE_VAL at once under an asynchronous force, its data
through an open latch. -/
def Half.ffLevel (x : Half) (nl : Netlist) (t col : Nat) (c : CellCfg) (f : FfCfg) (d q : Bool) : Bool :=
  if !natBit x.fab.ffs col || x.gsrOn nl t then f.start
  else if x.sig t c.force && (f.async || f.latch) then f.force
  else if f.latch && x.clkLevel t c.clk c.inv && x.sig t c.en && x.obeys col c.clk then d
  else q

/-- What a flip-flop takes at an active edge. -/
def Half.ffEdge (x : Half) (nl : Netlist) (t col : Nat) (c : CellCfg) (f : FfCfg) (d q : Bool) : Bool :=
  if f.latch || x.gsrOn nl t || !x.obeys col c.clk then q
  else if x.sig t c.force then f.force
  else if x.sig t c.en then d
  else q

/-- The five outputs as `Cells.sig` holds them. -/
def packCell (o : Bool × Bool × Bool) (qa qb : Bool) : BitVec 5 :=
  BitVec.ofNat 5 (bitNat o.1 + 2 * bitNat o.2.1 + 4 * bitNat o.2.2 + 8 * bitNat qa + 16 * bitNat qb)

/-- A cell's outputs from the present signals. -/
def Half.cellLook (x : Half) (nl : Netlist) (t n : Nat) (c : CellCfg) : BitVec 5 :=
  let o := x.cellOut nl t n c
  let v := sget x.fab.cell.sig n 0#5
  let i5 := x.sig t ((c.ins[5]?).getD .low)
  let q (f : FfCfg) (i : Nat) : Bool := x.ffLevel nl t (n / 1024) c f (pickData f o i5) (v.getLsbD i)
  packCell o (q c.ffA 3) (q c.ffB 4)

/-- A cell's outputs after an active edge of its clock: data, enable and force as they stood before it. -/
def Half.cellEdge (x : Half) (nl : Netlist) (t n : Nat) (c : CellCfg) : BitVec 5 :=
  let o := x.cellOut nl t n c
  let v := sget x.fab.cell.sig n 0#5
  let i5 := x.sig t ((c.ins[5]?).getD .low)
  let q (f : FfCfg) (i : Nat) : Bool := x.ffEdge nl t (n / 1024) c f (pickData f o i5) (v.getLsbD i)
  packCell (v.getLsbD 0, v.getLsbD 1, v.getLsbD 2) (q c.ffA 3) (q c.ffB 4)

/-! ## Long lines (R387, R388) -/

/-- The sites of a line that drive it now, as a mask. -/
def Half.siteMask (x : Half) (nl : Netlist) (t line : Nat) : Nat :=
  let d := sget x.fab.frames (longKey line) blankFrame
  (List.range 192).foldl (fun m s =>
    let on := siteMode d s == 1 || (siteMode d s == 2 && (match lookup nl.sites (line * 192 + s) with
      | some c => x.sig t c.wire
      | none => false))
    if on then m + 2 ^ s else m) 0

/-- The value of a line: its driver's, or the keeper's. -/
def Half.lineLook (x : Half) (nl : Netlist) (t line : Nat) : Bool :=
  match x.drivers line (x.siteMask nl t line) with
  | [s] => x.sig t ((lookup nl.sites (line * 192 + s)).getD ⟨.low, .low⟩).value
  | _ => x.fab.cell.line.getLsbD line

/-- The lines that have a site which may drive. -/
def Half.linesUsed (x : Half) : List Nat :=
  (List.range 64).filter (fun l => x.fab.frames.any (fun e => e.1 == longKey l))

/-! ## Settling -/

/-- Every cell and line once, all from the same signals; the cells of a held column stay (R397). -/
def Half.look (x : Half) (nl : Netlist) (t : Nat) : Half :=
  let c := x.fab.cell
  x.setCell { c with
    sig := nl.cells.foldl (fun m (e : Nat × CellCfg) =>
      if natBit x.fab.outs (e.1 / 1024) then sput m e.1 0#5 (x.cellLook nl t e.1 e.2) else m) c.sig
    line := x.linesUsed.foldl (fun m l =>
      (m &&& ~~~(1#64 <<< l)) ||| (BitVec.ofNat 64 (bitNat (x.lineLook nl t l)) <<< l)) c.line }

/-- Signals settle. What still moves after as many passes as there are cells and lines is a loop: its cells take open values. -/
def Half.settleSig (x : Half) (nl : Netlist) (t : Nat) : Nat → Half
  | 0 =>
    let y := x.look nl t
    x.setCell { x.fab.cell with sig := nl.cells.foldl (fun m (e : Nat × CellCfg) =>
      let a := sget x.fab.cell.sig e.1 0#5
      let b := sget y.fab.cell.sig e.1 0#5
      if a = b then m else sput m e.1 0#5 (a ^^^ ((a ^^^ b) &&& BitVec.ofNat 5 (Config.openNum (halfNum x.self) 4 e.1 t)))) x.fab.cell.sig }
  | n + 1 => let y := x.look nl t; if y.fab.cell = x.fab.cell then x else y.settleSig nl t n

/-! ## RAM blocks (R384, R385) -/

/-- What a block holds: its initial contents until its column's writes are on (R397). -/
def Half.ramBits (x : Half) (n : Nat) (r : RamCfg) : BitVec 32768 := (sget x.fab.cell.ram n none).getD r.init

/-- An access of one port at an edge. -/
structure RamAcc where
  port : RamPort
  /-- the first bit, the width and the word to be written, if any -/
  lo   : Nat
  w    : Nat
  data : Option Nat
  deriving DecidableEq, Repr

/-- What a port does at an active edge of its clock; nothing while its enable is 0. -/
def Half.ramAcc (x : Half) (t n : Nat) (p : RamPort) : Option RamAcc :=
  if !x.sig t p.en then none
  else
    let w := 2 ^ min p.logW 5
    some { port := p, lo := x.sigNum t p.addr % (32768 / w) * w, w := w,
           data := if x.sig t p.we && natBit x.fab.live (n / 8) then some (x.sigNum t p.din % 2 ^ w) else none }

/-- The read output of a port after an edge (R384): RD_STAGES 2 shows it one clock later. -/
def ramShow (a : RamAcc) (old : Nat) (was : Option (Nat × Nat)) : Option (Nat × Nat) :=
  let prev := was.getD (0, 0)
  let read := match a.data with
    | none => some old
    | some d => if a.port.onWrite = 1 then some d else if a.port.onWrite = 2 then was.map Prod.fst else some old
  match read with
  | none => none
  | some v => some (v, if a.port.stages = 2 then prev.1 else v)

/-- A word stored. -/
def ramPut (m : BitVec 32768) (lo w v : Nat) : BitVec 32768 :=
  (m &&& ~~~(BitVec.ofNat 32768 (2 ^ w - 1) <<< lo)) ||| (BitVec.ofNat 32768 v <<< lo)

/-- Both ports' accesses touch one bit. -/
def RamAcc.meets (a b : RamAcc) : Bool := decide (a.lo < b.lo + b.w) && decide (b.lo < a.lo + a.w)

/-- The ports of block `n` that have an active edge act (R385): both read what stood before, and port A's data is stored last. From
different clocks, accesses to one address give open values. -/
def Half.ramEdge (x : Half) (t n : Nat) (r : RamCfg) (ea eb : Bool) : Half :=
  let m := x.ramBits n r
  let a := if ea then x.ramAcc t n r.a else none
  let b := if eb then x.ramAcc t n r.b else none
  let clash := match a, b with
    | some a, some b => a.meets b && decide ((r.a.clk, r.a.inv) ≠ (r.b.clk, r.b.inv))
    | _, _ => false
  let any (k w : Nat) : Nat := Config.openNum (halfNum x.self) k n t % 2 ^ w
  let show_ (y : Half) (pb : Bool) (q : Option RamAcc) : Half :=
    match q with
    | none => y
    | some q =>
      let key := 2 * n + bitNat pb
      let old := if clash then any (5 + bitNat pb) q.w else (m.toNat >>> q.lo) % 2 ^ q.w
      let c := y.fab.cell
      y.setCell { c with rout := sput c.rout key none (ramShow q old (sget c.rout key none)) }
  let store (m : BitVec 32768) (k : Nat) (q : Option RamAcc) : BitVec 32768 :=
    match q with
    | some { lo := lo, w := w, data := some d, .. } => ramPut m lo w (if clash then any k w else d)
    | _ => m
  let m' := store (store m 7 b) 8 a
  let y := show_ (show_ x false a) true b
  if m' = m then y else y.setCell { y.fab.cell with ram := sput y.fab.cell.ram n none (some m') }

/-- The output stage of a port with none to read at this edge moves on (R384). -/
def Half.ramStage (x : Half) (n : Nat) (pb : Bool) (p : RamPort) : Half :=
  let c := x.fab.cell
  match sget c.rout (2 * n + bitNat pb) none with
  | some v => if p.stages = 2 then x.setCell { c with rout := sput c.rout (2 * n + bitNat pb) none (some (v.1, v.1)) } else x
  | none => x

/-! ## Edges -/

/-- The key of a RAM port's clock. -/
def ramClk (n : Nat) (pb : Bool) : Nat := 98304 + 2 * n + bitNat pb

/-- The clock of an element as it now is, and whether it has risen (active edges rise, an inverted clock being inverted). -/
def Half.rose (x : Half) (t key : Nat) (k : Clk) (inv : Bool) : Bool :=
  x.clkLevel t k inv && !sget x.fab.cell.clk key false

/-- One round of edges: every flip-flop and RAM port whose clock has risen acts on the signals as they stood. -/
def Half.clockRound (x : Half) (nl : Netlist) (t : Nat) : Half :=
  let c := x.fab.cell
  let sig := nl.cells.foldl (fun m (e : Nat × CellCfg) =>
    if natBit x.fab.outs (e.1 / 1024) && x.rose t e.1 e.2.clk e.2.inv then sput m e.1 0#5 (x.cellEdge nl t e.1 e.2) else m) c.sig
  let clk := nl.cells.foldl (fun m (e : Nat × CellCfg) => sput m e.1 false (x.clkLevel t e.2.clk e.2.inv)) c.clk
  let clk := nl.rams.foldl (fun m (e : Nat × RamCfg) =>
    sput (sput m (ramClk e.1 false) false (x.clkLevel t e.2.a.clk e.2.a.inv)) (ramClk e.1 true) false
      (x.clkLevel t e.2.b.clk e.2.b.inv)) clk
  let r := nl.rams.foldl (fun y (e : Nat × RamCfg) =>
    let ea := x.rose t (ramClk e.1 false) e.2.a.clk e.2.a.inv
    let eb := x.rose t (ramClk e.1 true) e.2.b.clk e.2.b.inv
    let z := if ea && !x.sig t e.2.a.en then y.ramStage e.1 false e.2.a else y
    let z := if eb && !x.sig t e.2.b.en then z.ramStage e.1 true e.2.b else z
    -- both ports act on the signals of `x`
    let w := (x.setCell { x.fab.cell with ram := z.fab.cell.ram, rout := z.fab.cell.rout }).ramEdge t e.1 e.2 ea eb
    z.setCell { z.fab.cell with ram := w.fab.cell.ram, rout := w.fab.cell.rout }) x
  r.setCell { r.fab.cell with sig := sig, clk := clk }

/-- Edges, and the edges that they make on clocks taken from wires (R390), until there are no more. -/
def Half.rounds (x : Half) (nl : Netlist) (t : Nat) : Nat → Half
  | 0 => x
  | n + 1 =>
    let y := (x.clockRound nl t).settleSig nl t (nl.cells.length + 64)
    if y.fab.cell = x.fab.cell then x else y.rounds nl t n

/-! ## Clock nets (R381, R390, R401) -/

/-- The phase of oscillator `k` goes on by half a base cycle: FREQ_KHZ offset by TRIM; an oscillator that is not locked is
low. -/
def Half.oscPhase (x : Half) (k : Nat) : Half :=
  let c := x.fab.cell
  let tr := x.rfld (Reg.afbOsc k) 0 12
  let scale := if tr < 2048 then 10000000 + tr else 10000000 - (4096 - tr)
  if x.rbit Reg.afbStatus (4 + k) then
    -- of 625,000,000,000,000: kHz × 1,000 × scale ÷ 10,000,000, over two half-cycles
    let step := x.rfld (Reg.afbOsc k) 12 19 * scale * 50
    x.setCell { c with osc := sput c.osc k 0 ((sget c.osc k 0 + step) % 625000000000000) }
  else x.setCell { c with osc := sput c.osc k 0 0 }

/-- The level of a clock source in a half-cycle. -/
def Half.source_ (x : Half) (t : Nat) (rise : Bool) : ClkSource → Bool
  | .off => false
  | .base => rise
  | .osc k => x.rbit Reg.afbStatus (4 + k) && decide (sget x.fab.cell.osc k 0 < 312500000000000)
  | .laneRx l => x.rbit (Reg.lnkLaneStat l) 7 && !x.laneInBundle l && x.openFab 9 l t
  | .wire s => x.sig t s

/-- The nets in a half-cycle; flip-flops that leave hold count the rising edges of theirs (R398). -/
def Half.moveNets (x : Half) (nl : Netlist) (t : Nat) (rise : Bool) : Half :=
  let c := x.fab.cell
  let lv := (nl.nets.zipIdx.take 16).foldl (fun m (e : ClkSource × Nat) =>
    m ||| (BitVec.ofNat 16 (bitNat (x.source_ t rise e.1)) <<< e.2)) 0#16
  let up := lv &&& ~~~c.nets
  let count (m : SMap Nat) : SMap Nat := (List.range 16).foldl (fun m k => if up.getLsbD k then sput m k 0 (min 3 (sget m k 0 + 1)) else m) m
  x.setCell { c with nets := lv, leave := c.leave.map (fun e => (e.1, count e.2)) }

/-- Columns held again or released since the last half-cycle. -/
def Half.seeRelease (x : Half) (nl : Netlist) (t : Nat) : Half :=
  let c := x.fab.cell
  let new := colsMinus x.fab.ffs c.seen
  let old := c.leave.filterMap (fun e => let m := e.1 &&& x.fab.ffs; if m = 0 then none else some (m, e.2))
  let quiet := if x.fab.gsr then 0 else if x.gsrOn nl t then 3 else c.quiet - 1
  x.setCell { c with
    seen := x.fab.ffs
    leave := if new = 0 then old else old ++ [(new, [])]
    ram := keepKeys (fun n => natBit x.fab.live (n / 8)) c.ram
    sig := keepKeys (fun n => x.colUsed (n / 1024)) c.sig
    quiet := quiet }

/-- A half-cycle of the base clock. -/
def Half.fabPhase (x : Half) (nl : Netlist) (t : Nat) (rise : Bool) : Half :=
  let y := (List.range 4).foldl Half.oscPhase (x.seeRelease nl t)
  let y := y.settleSig nl t (nl.cells.length + 64)
  (y.moveNets nl t rise).rounds nl t (nl.cells.length + 64)

/-- The contention detector at an edge of the base clock (R388). The line has no promised value until the next edge, and then
keeps what it held at the edge before. -/
def Half.detect (x : Half) (nl : Netlist) (t : Nat) : Half :=
  let x := x.setCell { x.fab.cell with fight := 0#64 }
  let hot := x.linesUsed.filter (fun l => decide (2 ≤ (x.drivers l (x.siteMask nl t l)).length))
  let y := hot.foldl (fun y l => y.contend l (x.siteMask nl t l)) x
  let m := hot.foldl (fun m l => m ||| (1#64 <<< l)) 0#64
  let c := y.fab.cell
  let v := (c.line &&& ~~~m) ||| (c.kept &&& m)
  y.setCell { c with line := v, kept := v, fight := m }

/-- FAB_OUT functions take what fabric logic presents (R391, R397, R434). -/
def Half.fabOuts (x : Half) (nl : Netlist) (t : Nat) : Half :=
  let kept := keepKeys (fun f => decide (f < 0x60)) x.pins.outp
  let outp := nl.outs.foldl (fun m (e : Nat × PortOut) =>
    sput m (0x100 + e.1) (false, false) (x.sigNum t e.2.value % 2 == 1, natBit x.fab.outs e.2.col && x.sig t e.2.valid)) kept
  { x with pins := { x.pins with outp := outp } }

/-! ## Serial controllers (R403) -/

/-- A setting within the limits of R403. -/
def serialOk : SerialCfg → Bool
  | .uart baud d _ st _ => decide (300 ≤ baud) && decide (baud ≤ 12500000) && decide (5 ≤ d) &&
    decide (d ≤ 8) && decide (1 ≤ st) && decide (st ≤ 2)
  | .spi r m ch b => decide (1 ≤ r) && decide (r ≤ 50000000) && decide (m < 4) && decide (ch < 4) && decide (8 ≤ b) && decide (b ≤ 32)
  | .i2c r => r == 100000 || r == 400000 || r == 1000000

/-- The low bits of a number, lowest first. -/
def bitsLow (n : Nat) : Nat → List Bool
  | 0 => []
  | k + 1 => (n % 2 == 1) :: bitsLow (n / 2) k

/-- The number that bits spell, lowest first. -/
def bitsNum : List Bool → Nat
  | [] => 0
  | b :: r => bitNat b + 2 * bitsNum r

/-- The frame of a character: start bit, data lowest first, parity, stop bits. -/
def uartFrame (v d : Nat) (par : Option Bool) (st : Nat) : List Bool :=
  let data := bitsLow v d
  false :: data ++ (match par with
    | some odd => [(data.foldl xor odd)]
    | none => []) ++ List.replicate st true

/-- The steps of a transfer, two to a bit, highest bit first: SCLK, MOSI, and whether MISO is sampled (clock modes 0 to 3). -/
def spiSteps (v mode b : Nat) : List (Bool × Bool × Bool) :=
  let idle := decide (2 ≤ mode)
  (bitsLow v b).reverse.flatMap (fun o =>
    if mode % 2 = 0 then [(idle, o, false), (!idle, o, true)] else [(!idle, o, false), (idle, o, true)])

/-- Time passes at `rate`: the part of the bit that remains, and whether a bit has ended. -/
def bitTime (acc rate : Nat) : Nat × Bool := if 625000000 ≤ acc + rate then (acc + rate - 625000000, true) else (acc + rate, false)

/-- Bytes received go into the FIFO while it has room. -/
def Serial.take (s : Serial) (bs : Bytes) : Serial := if s.rx.length + bs.length ≤ 64 then { s with rx := s.rx ++ bs } else s

/-- A UART in a fabric cycle, with its RX and CTS inputs (both active as a UART's lines are, CTS at 0). A frame whose parity or stop
bits are wrong is delivered or not as `bad` has it. -/
def Serial.uart (s : Serial) (baud d : Nat) (par : Option Bool) (st : Nat) (flow rx cts bad : Bool) : Serial :=
  let s := if s.send.isEmpty then
      match s.tx with
      | v :: q => if flow && cts then s else { s with tx := q, acc := 0, send := (uartFrame v.toNat d par st).map (fun b => (b, false, false)) }
      | [] => s
    else let a := bitTime s.acc baud; { s with acc := a.1, send := if a.2 then s.send.drop 1 else s.send }
  match s.recv with
  | none => if rx then s else { s with recv := some [], racc := 312500000 }
  | some bits =>
    let a := bitTime s.racc baud
    if !a.2 then { s with racc := a.1 }
    else
      let bits := bits ++ [rx]
      let s := { s with racc := a.1, recv := some bits }
      if bits.headD true then { s with recv := none }
      else if bits.length < 1 + d + bitNat par.isSome + st then s
      else
        let v := bitsNum ((bits.drop 1).take d)
        let s := { s with recv := none }
        if bits = uartFrame v d par st || bad then s.take [BitVec.ofNat 8 v] else s

/-- An SPI controller in a fabric cycle, with its MISO input. A transfer takes and gives its bits in whole bytes, the lowest first
(log entry 121). -/
def Serial.spi (s : Serial) (rate mode b : Nat) (miso : Bool) : Serial :=
  let nb := (b + 7) / 8
  match s.send with
  | [] =>
    if nb ≤ s.tx.length then
      { s with tx := s.tx.drop nb, acc := 0, send := spiSteps (leNat (s.tx.take nb)) mode b, recv := some [] }
    else s
  | _ :: r =>
    let a := bitTime s.acc (2 * rate)
    if !a.2 then { s with acc := a.1 }
    else
      let got := (s.recv.getD []) ++ (match r with
        | (_, _, true) :: _ => [miso]
        | _ => [])
      let s := { s with acc := a.1, send := r, recv := if r.isEmpty then none else some got }
      if r.isEmpty then s.take (leBytes nb (bitsNum got.reverse)) else s

/-- An I²C controller in a fabric cycle. What the fabric asks of it beside its bytes no rule gives: when a byte goes or comes and
what the lines do is open, `o` and `v`. -/
def Serial.i2c (s : Serial) (rate o : Nat) (v : Byte) : Serial :=
  let a := bitTime s.acc (2 * rate)
  if !a.2 then { s with acc := a.1 }
  else
    let s := { s with acc := a.1, send := [(natBit o 0, natBit o 1, false)], tx := if natBit o 2 then s.tx.drop 1 else s.tx }
    if natBit o 3 then s.take [v] else s

/-- The output functions of a controller (R434): number, value and enable. -/
def serialPins (c : Nat) (p : SerialCfg) (s : Serial) : List (Nat × Bool × Bool) :=
  match p with
  | .uart .. =>
    [(0x060 + 2 * c, (s.send.head?.map Prod.fst).getD true, true), (0x061 + 2 * c, decide (64 ≤ s.rx.length), true)]
  | .spi _ mode ch _ =>
    let base := 0x070 + 8 * (c - 4)
    (base, (s.send.head?.map Prod.fst).getD (decide (2 ≤ mode)), true) ::
    (base + 1, (s.send.head?.map (fun e => e.2.1)).getD false, true) ::
    (List.range 4).map (fun k => (base + 2 + k, s.send.isEmpty || k != ch, true))
  | .i2c _ =>
    [(0x080 + 2 * (c - 6), false, (s.send.head?.map Prod.fst).getD false),
     (0x081 + 2 * (c - 6), false, (s.send.head?.map (fun e => e.2.1)).getD false)]

/-- Controller `c` in a fabric cycle: the fabric's push and take, then its line. -/
def Half.serialCycle (x : Half) (t c : Nat) (p : SerialPort) : Half :=
  let s := sget x.fab.cell.ser c Serial.zero
  let s1 := if natBit x.fab.live p.push.col && x.sig t p.push.valid && decide (s.tx.length < 64) then
      { s with tx := s.tx ++ [BitVec.ofNat 8 (x.sigNum t p.push.value)] } else s
  let s2 := if natBit x.fab.live p.push.col && x.sig t p.take then { s1 with rx := s1.rx.drop 1 } else s1
  let s3 := if !serialOk p.cfg then s2 else match p.cfg with
    | .uart baud d par st flow => s2.uart baud d par st flow (x.inFn (0x020 + 2 * c)) (x.inFn (0x021 + 2 * c)) (x.openFab 10 c t)
    | .spi rate mode _ b => s2.spi rate mode b (x.inFn (0x030 + (c - 4)))
    | .i2c rate => s2.i2c rate (Config.openNum (halfNum x.self) 11 c t) (BitVec.ofNat 8 (Config.openNum (halfNum x.self) 12 c t))
  let y := x.setCell { x.fab.cell with ser := sput x.fab.cell.ser c Serial.zero s3 }
  { y with pins := { y.pins with outp := (serialPins c p.cfg s3).foldl (fun m e => sput m e.1 (serialIdle e.1) e.2) y.pins.outp } }

/-! ## Lane ports (R462, R464, R467) -/

/-- The line rate of a code as a multiple of 156.25 MHz (R458). -/
def rateMul (code : Nat) : Nat := ([0, 8, 16, 20, 32, 40, 66, 80, 165, 180][code]?).getD 0

/-- Line bits of a word of each PCS mode (R462). -/
def wordBits (pcs : Nat) : Nat := match pcs with
  | 0 => 64
  | 1 => 40
  | _ => 66

/-- The idle of a lane (R462): a raw word of 0, K28.5 in four characters, or an idle control block. -/
def laneIdle (pcs : Nat) : BitVec 72 := match pcs with
  | 0 => 0#72
  | 1 => 0x00FBCBCBCBC#72
  | _ => 0xFF0707070707070707#72

/-- The characters that 8b/10b has as K codes. -/
def kCodes : List Nat := [0x1C, 0x3C, 0x5C, 0x7C, 0x9C, 0xBC, 0xDC, 0xFC, 0xF7, 0xFB, 0xFD, 0xFE]

/-- A word of four characters that comes back from near-end loopback as it went: its K characters exist, and none but character 0 is
a comma, which would move the alignment; or the idle. -/
def kWordOk (w : BitVec 72) : Bool :=
  w == laneIdle 1 ||
  (List.range 4).all (fun i => !w.getLsbD (32 + i) ||
    (kCodes.contains (natField w.toNat (8 * i) 8) && (i == 0 || natField w.toNat (8 * i) 8 != 0xBC)))

/-- What near-end loopback gives back (R467): raw words without alignment, with the polarities of both ends. -/
def Half.loopBack (x : Half) (t l : Nat) (prev w : BitVec 72) : BitVec 72 :=
  let r := Reg.lnkLaneCfg l
  let flip := x.rbit r 26 != x.rbit r 25
  match x.rfld r 28 2 with
  | 0 =>
    let k := Config.openNum (halfNum x.self) 13 l 0 % 64
    let v := (prev.toNat % 2 ^ 64 + w.toNat % 2 ^ 64 * 2 ^ 64) / 2 ^ k % 2 ^ 64
    BitVec.ofNat 72 (if flip then 2 ^ 64 - 1 - v else v)
  | 1 => if kWordOk w && !flip then w else BitVec.ofNat 72 (Config.openNum (halfNum x.self) 14 l t)
  | _ => BitVec.ofNat 72 (if flip then Config.openNum (halfNum x.self) 14 l t else Config.baseRLoop (halfNum x.self) l w.toNat)

/-- A received word's errors (R470): code errors, the BER monitor and the FEC are what the line makes them. -/
def Half.lineErrors (x : Half) (t l : Nat) : Half :=
  let o := Config.openNum (halfNum x.self) 15 l t
  match x.rfld (Reg.lnkLaneCfg l) 28 2 with
  | 0 => x
  | 1 => x.countFld (Reg.lnkLaneErr l) 16 16 (o % 8)
  | _ =>
    let y := (x.countFld (Reg.lnkLaneErr l) 16 16 (o % 2)).setRBit (Reg.lnkLaneStat l) 5 (natBit o 1)
    if x.rbit (Reg.lnkLaneCfg l) 27 then
      (y.countFld (Reg.lnkLaneFec l) 0 16 (o / 4 % 2)).countFld (Reg.lnkLaneFec l) 16 16 (o / 8 % 2)
    else y

/-- What arrives at a lane in a fabric cycle: in near-end loopback the word sent, if one was; else whatever the line brings while the
receiver is in lock. A receiver that checks a pattern counts its bit errors and shows nothing (R467). -/
def Half.laneReceive (x : Half) (t l : Nat) (prev : BitVec 72) (sent : Option (BitVec 72)) : Half × Option (BitVec 72) :=
  let r := Reg.lnkLaneCfg l
  if !x.rbit (Reg.lnkLaneStat l) 6 then (x, none)
  else if x.rfld r 23 2 = 1 then (x, if x.rfld r 21 2 = 0 then sent.map (x.loopBack t l prev) else none)
  else if !x.openFab 16 l t then (x, none)
  else if x.rfld r 21 2 ≠ 0 then (x.countFld (Reg.lnkLaneErr l) 16 16 (Config.openNum (halfNum x.self) 17 l t % 65), none)
  else (x.lineErrors t l, some (BitVec.ofNat 72 (Config.openNum (halfNum x.self) 18 l t)))

/-- Lane `l` in a fabric cycle (R462): it takes a word while it has none waiting, and sends at its word rate, its idle where it has
none. -/
def Half.laneCycle (x : Half) (nl : Netlist) (t l : Nat) : Half :=
  let r := Reg.lnkLaneCfg l
  let p := sget x.fab.cell.lane l LanePort.zero
  let pcs := x.rfld r 28 2
  let far := x.rfld r 23 2 == 2
  let offer := match lookup nl.lanes l with
    | some o => if natBit x.fab.live o.col && x.sig t o.valid && !far then some (BitVec.ofNat 72 (x.sigNum t o.value)) else none
    | none => none
  let word := match p.word with
    | some w => some w
    | none => offer
  let acc := p.acc + rateMul (x.lanePll l (x.reg r)).1
  if acc < 4 * wordBits pcs then
    let v := x.laneReceive t l p.last none
    v.1.setCell { v.1.fab.cell with lane := sput v.1.fab.cell.lane l LanePort.zero { p with word := word, acc := acc, rx := v.2 } }
  else
    let prbs := x.rfld r 21 2
    let w := word.getD (laneIdle pcs)
    let y := x.emit (.lane (BitVec.ofNat 6 l)
      (if far then .relayed else if prbs ≠ 0 then .prbs (BitVec.ofNat 2 prbs) else match word with
        | some w => .word w
        | none => .idle))
    let y := if far || prbs ≠ 0 || word.isSome then y else y.countFld (Reg.lnkLaneErr l) 0 16 1
    let v := y.laneReceive t l p.last (some w)
    let q : LanePort := { word := none, acc := acc - 4 * wordBits pcs, last := w, rx := v.2 }
    v.1.setCell { v.1.fab.cell with lane := sput v.1.fab.cell.lane l LanePort.zero q }

/-- The lanes that the fabric has: enabled and in no bundle. In a bundle the port shows VALID = 0 and takes nothing (R460). -/
def Half.fabLanes (x : Half) : List Nat :=
  (List.range 48).filter (fun l => x.rbit (Reg.lnkLaneCfg l) 31 && !x.laneInBundle l)

/-! ## The fabric in real time -/

/-- A cycle of the base clock, 1.6 ns: the rising edge, the ports at it, and the falling edge. -/
def Half.fabCycle (x : Half) (nl : Netlist) (lanes : List Nat) (t : Nat) : Half :=
  let y := (x.fabPhase nl t true).detect nl t
  let y := y.fabOuts nl t
  let y := nl.serial.foldl (fun y (e : Nat × SerialPort) => y.serialCycle t e.1 e.2) y
  let y := lanes.foldl (fun y l => y.laneCycle nl t l) y
  y.fabPhase nl (t + 1) false

/-- The fabric for 3.2 ns, two cycles of its base clock. Open values are told apart by the count of free values. -/
def Half.fabTick (x : Half) : Half :=
  let lanes := x.fabLanes
  if x.fab.frames.isEmpty && lanes.isEmpty && x.fab.cell.lane.isEmpty && x.fab.cell.sig.isEmpty then x
  else
    let c := x.fab.cell
    let nl := x.netlist
    let y := x.setCell { c with lane := keepKeys (fun l => lanes.contains l) c.lane
                                ser := keepKeys (fun k => (lookup nl.serial k).isSome) c.ser }
    let y := { y with free := y.free + 4 }
    (y.fabCycle nl lanes x.free).fabCycle nl lanes (x.free + 2)

end Sys2Proof.Machine
end

