-- ==== Sys2Proof/Machine/Idle.lean ====
section
/-!
DEFINITION. Machine/Idle.lean: what time does to the module when no command comes (R148, R183, R200, R211, R488, R503,
R534).
-/

namespace Sys2Proof.Machine

/-- Steps of the half's step clock in a cycle of the time clock, 3.2 ns: 0.32 ns each, throttled 0.64 ns (R185). -/
def Half.stepsPerTick (x : Half) : Nat := if x.run.throttled then 5 else 10

/-- The step clock for 3.2 ns (R148). The steps of a running half pass with TICK, STALL_POINT_RELEASE and IDLE_DECISION,
those of a linked run with LINKED_STALL_EVAL, but for the wait for START_LSC, which LINKED_START ends; a held half stalls under HOLD (R184, R189). -/
def Half.stepClock (x : Half) : Half :=
  match x.run.state with
  | .running =>
    if x.run.linkWait.isNone then x
    else x.lscSteps (match x.run.linkStart with
      | some q => let n := lscDist q x.lscNat
                  if n < 2 ^ 47 then min n x.stepsPerTick else x.stepsPerTick
      | none => x.stepsPerTick)
  | .recovering => if x.replaying then x else x.lscSteps x.stepsPerTick
  | .held =>
    if x.run.linked then x
    else
      let c := match x.run.stall with
        | some p => (x.ownCause p.cur.dom).getD 4
        | none => 4
      (x.stallSteps c x.stepsPerTick).setStall (fun p =>
        { p with cause := c, sample := if x.run.mode = .split then p.sample else some c })
  | _ => x.lscSteps x.stepsPerTick

/-- Four control cycles, 3.2 ns: the free-running count (R200) and `SEQ_TIMER` (R211). -/
def Half.ctlCycles (x : Half) : Half :=
  let y := { x with ctl := x.ctl + 4 }
  let n := (y.reg Reg.seqTimer).toNat
  if n = 0 then y
  else if n ≤ 4 then (y.setReg Reg.seqTimer 0#32).event 280
  else y.setReg Reg.seqTimer (BitVec.ofNat 32 (n - 4))

/-- What passes in a half in one cycle of its time clock; in fallow, whose clocks are gated, 40 ns of the always-on
oscillator (R503, R556). In a half held in reset the lockout wait alone goes on (R595). -/
def Half.idleTick (x : Half) : Half :=
  let x := x.waitPass (if x.sys.fallow.isSome then 400 else 32)
  if x.heldInReset then x
  else if x.sys.fallow.isSome then
    let y := x.phcAdvance 400
    { y with sys := { y.sys with slept := y.sys.slept + 1 } }
  else ((x.phcAdvance 32).traceTick.stepClock).ctlCycles.fabTick.keepPads.pinsResume

/-- The module when its queue is empty. -/
def State.idleTick (s : State) : State := (s.both Half.idleTick).settle

end Sys2Proof.Machine
end

