-- ==== Sys2Proof/Machine/LinkCmds.lean ====
section
/-!
DEFINITION. Machine/LinkCmds.lean: what a bundle receives: RUN, IDLE, FILL, SKIP, START and ABORT blocks, packets, and the
evaluations of a linked run (R143 to R147, R154 to R161, R275, R276).
-/

namespace Sys2Proof.Machine

/-! ## Blocks of packets and exchange bits -/

/-- Does a block break the sequence of SEQ (R143, R160)? -/
def Bundle.seqBroken (u : Bundle) (blk : Block) : Bool :=
  match u.seqRx with
  | some q => q != blk.seq
  | none => false

/-- The SEQ expected after a block: one on from its own, or, where it is bad, from the one that was expected. -/
def Bundle.seqNext (u : Bundle) (blk : Block) : Bundle :=
  { u with seqRx := if blk.bad then u.seqRx.map (fun q => (q + 1) % 256) else some ((blk.seq + 1) % 256) }

/-- The block follows: its SEQ, and no copy of START or ABORT is being repeated any more. -/
def Half.follow (x : Half) (b : Nat) (blk : Block) : Half :=
  x.setBun b { (x.bun b).seqNext blk with lastCtl := if blk.bad then (x.bun b).lastCtl else none }

/-- The LIN bits that a RUN block with sender LSC `q` brings (R156, R157). -/
def Bundle.window (u : Bundle) (b q : Nat) (blk : Block) : LinkWindow :=
  ⟨b, u.lo b, mod48 (q + u.frozen + (2 ^ 48 - 2)), u.span b, u.effE, blk.body.toNat % 2 ^ (u.span b * u.effE)⟩

/-- The last step of a window has passed. -/
def Half.windowPast (x : Half) (w : LinkWindow) : Bool :=
  let d := lscDist x.lscNat w.start
  decide (w.span ≤ d) && decide (d < 2 ^ 47)

/-- A bad RUN block (R131, R160): it counts, its LIN bits read 0 under LINK_DATA, recorded at the first step that would have
read them, and the next sample carries HALT. -/
def Half.badRun (x : Half) (b : Nat) (win : LinkWindow) : Half :=
  let y := (x.badBlock b).bundleEvt b 3
  let y := { y with run := { y.run with linkHalt := true } }
  if lscDist win.start y.lscNat < 2 ^ 47 then { y with ar := { y.ar with linBad := y.ar.linBad ++ [win] } }
  else y.linkFault win 0xFFF

/-- Change the half of a bundle, with what follows at once in its transaction engine; in PAIRED the lead half's engine alone acts
(R274). -/
def State.linkTxe (s : State) (h : HalfId) (f : Half → Half) : State := if (s.heads h).contains h then s.txe h f else s.upd h f

/-- A RUN block of sender LSC `q` as the bundle reads it (R156 to R158, R160). -/
def Half.runBlock (x : Half) (b q : Nat) (blk : Block) : Half :=
  let u := x.bun b
  let win := u.window b q blk
  let y := x.follow b blk
  if blk.bad || blk.kind != 2 || u.seqBroken blk then y.badRun b win
  else
    let n := u.span b * u.effE
    let y := y.setBun b { y.bun b with rxSmp := u.rxSmp ++ [⟨q, u.span b, blk.flags⟩] }
    let y := { y with ar := { y.ar with lin := y.ar.lin.filter (fun w => !y.windowPast w) ++ [win] } }
    y.packetArea b blk.pstart (leBytes (64 - n / 8) (blk.body.toNat / 2 ^ n))

/-- RUN_BLOCK (R156, R157, R160): exchange bits of the steps from sender LSC `q` and packet bytes; a bad one makes
those LIN bits read 0, is recorded under LINK_DATA and sets HALT in the next sample. -/
def execRunBlock (h : HalfId) (b : BitVec 4) (q : BitVec 48) (w : WireBlock) (s : State) : Host.Outcome State Fault Refusal :=
  let i := b.toNat
  let u := (s.half h).bun i
  .next (if u.st = .active ∧ q.toNat % u.span i = 0 then
      s.linkTxe h (fun x => x.rxBlock i w (fun y => y.runBlock i q.toNat (u.read i w)))
    else s)

/-- An IDLE, FILL or SKIP block as the bundle reads it: SKIP is passed over (R144). -/
def Half.idleBlock (x : Half) (b : Nat) (blk : Block) : Half :=
  if !blk.bad && blk.kind == 7 then x
  else if blk.bad || !(blk.kind == 1 || blk.kind == 6) || (x.bun b).seqBroken blk then (x.follow b blk).badBlock b
  else (x.follow b blk).packetArea b blk.pstart (leBytes 64 blk.body.toNat)

/-- IDLE_BLOCK (R144, R146): an IDLE or FILL block of 64 packet bytes. -/
def execIdleBlock (h : HalfId) (b : BitVec 4) (w : WireBlock) (s : State) : Host.Outcome State Fault Refusal :=
  let i := b.toNat
  let u := (s.half h).bun i
  .next (if u.live then s.linkTxe h (fun x => x.rxBlock i w (fun y => y.idleBlock i (u.read i w))) else s)

/-! ## Packets -/

/-- DATA_PACKET (R146, R275, R276). -/
def execDataPacket (h : HalfId) (b : BitVec 4) (chan : BitVec 8) (pseq : BitVec 16) (payload : Bytes) (s : State) :
    Host.Outcome State Fault Refusal :=
  .next (if ((s.half h).bun b.toNat).live then s.linkTxe h (fun x => x.dataPacket b.toNat chan.toNat pseq.toNat payload) else s)

/-- ACK_PACKET (R146). -/
def execAckPacket (h : HalfId) (b : BitVec 4) (ackseq : BitVec 16) (s : State) : Host.Outcome State Fault Refusal :=
  .next (if ((s.half h).bun b.toNat).live then s.linkTxe h (fun x => x.ackPacket b.toNat ackseq.toNat) else s)

/-- NAK_PACKET (R146, R165). -/
def execNakPacket (h : HalfId) (b : BitVec 4) (ackseq : BitVec 16) (s : State) : Host.Outcome State Fault Refusal :=
  .next (if ((s.half h).bun b.toNat).live then s.linkTxe h (fun x => x.nakPacket b.toNat ackseq.toNat) else s)

/-- CREDIT_PACKET (R276). -/
def execCreditPacket (h : HalfId) (b : BitVec 4) (chan : BitVec 8) (granted : Word) (s : State) :
    Host.Outcome State Fault Refusal :=
  .next (if ((s.half h).bun b.toNat).live then s.linkTxe h (fun x => x.creditPacket b.toNat chan.toNat granted.toNat) else s)

/-! ## START and ABORT (R144, R155) -/

/-- A START or ABORT as the bundle reads it: a bad one counts; of a good one the copies are told by kind and START_LSC. -/
def Half.ctlBlock (x : Half) (b kind : Nat) (blk : Block) : Half :=
  let y := x.follow b blk
  if blk.bad || blk.kind != kind then y.countFld (Reg.lnkTmBerr b) 16 16 1
  else y.setBun b { y.bun b with lastCtl := some (kind, natField blk.body.toNat 0 48) }

/-- The first good copy of a START or ABORT has come (R144). -/
def Bundle.firstCopy (u : Bundle) (kind : Nat) (blk : Block) : Bool :=
  !blk.bad && blk.kind == kind && u.lastCtl != some (kind, natField blk.body.toNat 0 48)

/-- The `LNK_TM_RUNCFG` of the linked run of a member, or of its next one (R164). -/
def State.groupCfg (s : State) (h : HalfId) : Word :=
  let g := s.half (s.govern h)
  if g.run.linked then g.run.linkCfg else g.reg Reg.lnkTmRuncfg

/-- A linked start is given up: a waiting one ends, and ABORT goes out on every bundle of the group (R155). -/
def State.abortStart (s : State) (h : HalfId) (start : Nat) : State :=
  let cfg := s.groupCfg h
  let s := s.member h (fun y => { y with run := { y.run with
    aborted := some start, linkStart := if y.run.linkStart = some start then none else y.run.linkStart } })
  let s := if (s.half (s.govern h)).run.linkStart.isNone then s.cancelLink (s.govern h) else s
  s.sendMask cfg 5 start

/-- A START is refused (R154, R155): the digest or F differs, the LSC has passed START_LSC, or this member leads a group itself. -/
def State.startRefused (s : State) (h : HalfId) (b : Nat) (blk : Block) : Bool :=
  let g := s.half (s.govern h)
  let cfg := s.groupCfg h
  let f := natField blk.body.toNat 80 10
  let buns := [HalfId.h0, .h1].flatMap (fun k => ((s.half k).maskBundles cfg).map (fun b => (s.half k).bun b))
  let past := lscDist (s.half h).lscNat (natField blk.body.toNat 0 48)
  wbit cfg 1 || natField blk.body.toNat 48 32 != (g.reg Reg.lnkTmDigest).toNat || f != ((s.half h).bun b).frozen ||
  buns.any (fun u => u.frozen != f) || (decide (0 < past) && decide (past < 2 ^ 47))

/-- The first good copy of a START (R155): it schedules the linked start, or it is refused with ABORT on every bundle. A
member that has made no run start of its own keeps it for one (log entry 88). -/
def State.takeStart (s : State) (h : HalfId) (b : Nat) (blk : Block) : State :=
  let start := natField blk.body.toNat 0 48
  if s.startRefused h b blk then (s.upd h (fun x => x.bundleEvt b 2)).abortStart h start
  else s.member h (fun y => { y with run := { y.run with
    linkStart := some start, aborted := none
    linkSend := if y.run.linkWait.isSome then some (sendFrom start) else y.run.linkSend } })

/-- START_BLOCK (R144, R155): a START that agrees in digest and F and is not late schedules the linked start; another is
refused with ABORT on every bundle. -/
def execStartBlock (h : HalfId) (b : BitVec 4) (w : WireBlock) (s : State) : Host.Outcome State Fault Refusal :=
  let i := b.toNat
  let u := (s.half h).bun i
  let blk := u.read i w
  .next (if u.live then
      let t := s.upd h (fun x => x.rxBlock i w (fun y => y.ctlBlock i 4 blk))
      if ((t.half h).bun i).live && u.firstCopy 4 blk then t.takeStart h i blk else t
    else s)

/-- The first good copy of an ABORT (R155, R165): before START_LSC it is forwarded and cancels the start, once. -/
def State.takeAbort (s : State) (h : HalfId) (b : Nat) (blk : Block) : State :=
  let start := natField blk.body.toNat 0 48
  let left := lscDist start (s.half h).lscNat
  let t := s.upd h (fun x => x.bundleEvt b 4)
  if 0 < left ∧ left < 2 ^ 47 ∧ (s.half (s.govern h)).run.aborted ≠ some start then t.abortStart h start else t

/-- ABORT_BLOCK (R155, R165): an ABORT before START_LSC is forwarded and cancels the start. -/
def execAbortBlock (h : HalfId) (b : BitVec 4) (w : WireBlock) (s : State) : Host.Outcome State Fault Refusal :=
  let i := b.toNat
  let u := (s.half h).bun i
  let blk := u.read i w
  .next (if u.live then
      let t := s.upd h (fun x => x.rxBlock i w (fun y => y.ctlBlock i 5 blk))
      if ((t.half h).bun i).live && u.firstCopy 5 blk then t.takeAbort h i blk else t
    else s)

/-- LINKED_START (R155): the half's LSC reaches START_LSC, and the run's first tick begins there. -/
def execLinkedStart (h : HalfId) (s : State) : Host.Outcome State Fault Refusal :=
  let g := s.govern h
  .next (match (s.half g).run.linkStart, (s.half g).run.linkWait with
    | some q, some _ =>
      if lscDist q (s.half g).lscNat < 2 ^ 47 then
        s.grp g (fun x =>
          let y := x.passSteps (lscDist q x.lscNat)
          { y with run := { y.run with linkStart := none, linkWait := none } })
      else s
    | _, _ => s)

/-! ## The evaluations of a linked run (R158, R159, R161) -/

/-- U of a linked run (R158): the least multiple of 8 that is at least the frozen latency of its bundles. -/
def State.linkU (s : State) (h : HalfId) : Nat :=
  let f := (s.members h).foldl (fun m k =>
    (((s.half k).maskBundles (s.half k).run.linkCfg).map (fun b => ((s.half k).bun b).frozen)).foldl max m) 0
  (f + 7) / 8 * 8

/-- The samples of the other members that the half's bundles have brought for its own sample step; none where one is missing or
came in a bad block. -/
def Half.peerSamples (x : Half) : List (Option LinkFlags) :=
  let l := (x.run.stall.map (fun p => p.lsc)).getD 0
  (x.maskBundles x.run.linkCfg).map (fun b =>
    ((x.bun b).rxSmp.find? (fun p => decide (lscDist l p.q < p.span))).map (fun p => p.flags))

/-- Samples of steps before the present one are done with. -/
def Half.dropSamples (x : Half) : Half :=
  let l := (x.run.stall.map (fun p => p.lsc)).getD 0
  (x.maskBundles x.run.linkCfg).foldl (fun y b =>
    let u := y.bun b
    y.setBun b { u with rxSmp := u.rxSmp.filter (fun p => decide (2 ^ 47 ≤ lscDist l p.q)) }) x

/-- LINKED_STALL_EVAL (R158, R159, R161): the samples of every member taken U steps earlier, this one's own among them. A
stop that this member alone asked for ends its run STOPPED, every other HALT ends it FAULTED. -/
def execLinkedStallEval (h : HalfId) (s : State) : Host.Outcome State Fault Refusal :=
  let x := s.half h
  .next (match x.run.stall with
    | none => s
    | some p =>
      if !x.run.linked || !(x.run.state == .running || x.run.state == .held || x.run.state == .recovering) then s
      else
        let others := (s.members h).flatMap (fun k => (s.half k).peerSamples)
        let far (f : LinkFlags → Bool) : Bool := others.any (fun o => o.any f)
        let u := s.linkU h
        let k := if p.evals = 0 then u - 8 else u
        let t := s.grp h (fun y =>
          let c := y.stallCause p.cur.dom y.sampled (s.paired h && (s.half (otherHalf y.self)).sampled.isSome)
          (y.dropSamples.stallSteps c k).setStall (fun p => { p with evals := p.evals + 1 }))
        let halt := others.any (fun o => o.isNone) || far (fun f => f.halt)
        if s.anySample h (fun p => p.halt) || halt then
          match (if halt then none else x.run.cond.filter (fun q => q.stop)) with
          | some q => (t.holdRun h q).settle
          | none => (t.grp h (fun y => (y.asrCause 7).intoFaulted)).settle
        else
          let t := if s.anySample h (fun p => p.thr) || far (fun f => f.throt) then
              t.grp h (fun y => y.switchClock (!y.run.throttled)) else t
          if s.anySample h (fun p => p.sample.isSome) || far (fun f => f.stall) then (t.sampleStall h p.cur.dom).settle
          else ((t.passStall h).goOn h).settle)

end Sys2Proof.Machine
end

