-- ==== Sys2Proof/Machine/Seq.lean ====
section
/-!
DEFINITION. Machine/Seq.lean: the instructions of the sequencer (R192 to R200, R215, R602).

Each command of this family is the execution of one instruction by the sequencer of half `h`; its operands are the fields
of the instruction word that R602 says it uses. Where that sequencer does not execute that instruction, the event cannot
arise and the machine stays as it is.
-/

namespace Sys2Proof.Machine

/-! ## What every instruction does -/

/-- The sequencer of the half executes instruction `i` now: EXEC_STATE is EXEC (R193), it is the sequencer that runs
(R194), PC lies in the program (R215), and the word at PC is that instruction's (R192, R195). -/
def State.canExec (s : State) (h : HalfId) (i : Instr) : Bool :=
  (s.half h).seq.exec == .exec && s.seqRuns h && decide ((s.half h).seq.pc.toNat < (s.half h).seq.progWords) &&
  decide (seqDecode h (s.half h).seqWord = some i)

/-- The word at PC is read from SP0 (R238) and, with SEQ_FULL = 1, traced as SEQ_INS (R533). -/
def Half.traceIns (x : Half) : Half :=
  let x := (x.devRead .seq (spAddr 0 + x.seq.pc.toNat * 4) 4).2
  if x.rbit Reg.trcCtrl 0 then x.trace 1 2 [x.seq.pc.setWidth 32, x.seqWord] else x

/-- The sequencer executes an instruction that acts on its own half alone and goes on to the next word. -/
def State.seqOp (s : State) (h : HalfId) (i : Instr) (f : Half → Half) : State :=
  if s.canExec h i then s.upd h (fun x => (f x.traceIns).advPc.fetched) else s

/-- An instruction that computes `wd` from registers and immediates. -/
def State.alu (s : State) (h : HalfId) (i : Instr) (wd : BitVec 5) (f : Half → DWord) : State :=
  s.seqOp h i (fun x => x.setW wd (f x))

/-- A word of 1 or 0. -/
def flagWord (b : Bool) : DWord := if b then 1#64 else 0#64

/-- NOP (R196). -/
def execNop (h : HalfId) (s : State) : Host.Outcome State Fault Refusal := .next (s.seqOp h (.nop h) (fun x => x))
/-- ADD (R196). -/
def execAdd (h : HalfId) (wd wa wb : BitVec 5) (s : State) : Host.Outcome State Fault Refusal :=
  .next (s.alu h (.add h wd wa wb) wd (fun x => x.w wa + x.w wb))
/-- SUB (R196). -/
def execSub (h : HalfId) (wd wa wb : BitVec 5) (s : State) : Host.Outcome State Fault Refusal :=
  .next (s.alu h (.sub h wd wa wb) wd (fun x => x.w wa - x.w wb))
/-- AND (R196). -/
def execAnd (h : HalfId) (wd wa wb : BitVec 5) (s : State) : Host.Outcome State Fault Refusal :=
  .next (s.alu h (.and h wd wa wb) wd (fun x => x.w wa &&& x.w wb))
/-- OR (R196). -/
def execOr (h : HalfId) (wd wa wb : BitVec 5) (s : State) : Host.Outcome State Fault Refusal :=
  .next (s.alu h (.or h wd wa wb) wd (fun x => x.w wa ||| x.w wb))
/-- XOR (R196). -/
def execXor (h : HalfId) (wd wa wb : BitVec 5) (s : State) : Host.Outcome State Fault Refusal :=
  .next (s.alu h (.xor h wd wa wb) wd (fun x => x.w wa ^^^ x.w wb))
/-- SHL (R196): by wb[5:0]. -/
def execShl (h : HalfId) (wd wa wb : BitVec 5) (s : State) : Host.Outcome State Fault Refusal :=
  .next (s.alu h (.shl h wd wa wb) wd (fun x => x.w wa <<< shamt (x.w wb)))
/-- SHR (R196): by wb[5:0]. -/
def execShr (h : HalfId) (wd wa wb : BitVec 5) (s : State) : Host.Outcome State Fault Refusal :=
  .next (s.alu h (.shr h wd wa wb) wd (fun x => x.w wa >>> shamt (x.w wb)))
/-- SRA (R196): by wb[5:0]. -/
def execSra (h : HalfId) (wd wa wb : BitVec 5) (s : State) : Host.Outcome State Fault Refusal :=
  .next (s.alu h (.sra h wd wa wb) wd (fun x => (x.w wa).sshiftRight (shamt (x.w wb))))
/-- CLT (R196): a signed comparison. -/
def execClt (h : HalfId) (wd wa wb : BitVec 5) (s : State) : Host.Outcome State Fault Refusal :=
  .next (s.alu h (.clt h wd wa wb) wd (fun x => flagWord ((x.w wa).slt (x.w wb))))
/-- CLTU (R196): an unsigned comparison. -/
def execCltu (h : HalfId) (wd wa wb : BitVec 5) (s : State) : Host.Outcome State Fault Refusal :=
  .next (s.alu h (.cltu h wd wa wb) wd (fun x => flagWord ((x.w wa).ult (x.w wb))))
/-- MUL (R196). -/
def execMul (h : HalfId) (wd wa wb : BitVec 5) (s : State) : Host.Outcome State Fault Refusal :=
  .next (s.alu h (.mul h wd wa wb) wd (fun x => x.w wa * x.w wb))
/-- ADDI (R196). -/
def execAddi (h : HalfId) (wd wa : BitVec 5) (imm : BitVec 16) (s : State) : Host.Outcome State Fault Refusal :=
  .next (s.alu h (.addi h wd wa imm) wd (fun x => x.w wa + sext16 imm))
/-- ANDI (R196). -/
def execAndi (h : HalfId) (wd wa : BitVec 5) (imm : BitVec 16) (s : State) : Host.Outcome State Fault Refusal :=
  .next (s.alu h (.andi h wd wa imm) wd (fun x => x.w wa &&& zext16 imm))
/-- ORI (R196). -/
def execOri (h : HalfId) (wd wa : BitVec 5) (imm : BitVec 16) (s : State) : Host.Outcome State Fault Refusal :=
  .next (s.alu h (.ori h wd wa imm) wd (fun x => x.w wa ||| zext16 imm))
/-- XORI (R196). -/
def execXori (h : HalfId) (wd wa : BitVec 5) (imm : BitVec 16) (s : State) : Host.Outcome State Fault Refusal :=
  .next (s.alu h (.xori h wd wa imm) wd (fun x => x.w wa ^^^ zext16 imm))
/-- SHLI (R196): by IMM[5:0]; the other bits are ignored. -/
def execShli (h : HalfId) (wd wa : BitVec 5) (imm : BitVec 16) (s : State) : Host.Outcome State Fault Refusal :=
  .next (s.alu h (.shli h wd wa imm) wd (fun x => x.w wa <<< shamt (zext16 imm)))
/-- SHRI (R196): by IMM[5:0]; the other bits are ignored. -/
def execShri (h : HalfId) (wd wa : BitVec 5) (imm : BitVec 16) (s : State) : Host.Outcome State Fault Refusal :=
  .next (s.alu h (.shri h wd wa imm) wd (fun x => x.w wa >>> shamt (zext16 imm)))
/-- UPPI (R196). -/
def execUppi (h : HalfId) (wd : BitVec 5) (imm : BitVec 16) (s : State) : Host.Outcome State Fault Refusal :=
  .next (s.alu h (.uppi h wd imm) wd (fun _ => zext16 imm <<< (16 : Nat)))

/-! ## Time sources (R200) -/

/-- Time source `n` as half `h` reads it. -/
def Half.timeSource (x : Half) (n : Nat) : DWord :=
  match n with
  | 0 => x.run.cyc
  | 1 => x.run.vt
  | 2 => x.run.lsc.setWidth 64
  | 3 => x.nextVt
  | 4 => BitVec.ofNat 64 x.ctl
  | 5 => x.phc.sec.setWidth 64
  | 6 => BitVec.ofNat 64 (x.phc.ns.toNat * 65536 + x.phc.frac.toNat)
  | _ => 0#64

/-- RDT (R196, R200): source IMM[3:0]. -/
def execRdt (h : HalfId) (wd : BitVec 5) (imm : BitVec 16) (s : State) : Host.Outcome State Fault Refusal :=
  .next (s.alu h (.rdt h wd imm) wd (fun x => x.timeSource (imm.toNat % 16)))

/-! ## Memory and registers (R196, R215) -/

/-- The byte of SP0 that an LD or ST names (R196). -/
def Half.spOff (x : Half) (wa : BitVec 5) (imm : BitVec 16) : Nat := (x.w wa + sext16 imm).toNat % 2 ^ 20

/-- The device address that an RDC or WRC names (R196). -/
def Half.ctlAddr (x : Half) (wa : BitVec 5) (imm : BitVec 16) : Nat := (x.w wa + sext16 imm).toNat % 2 ^ 40

/-- The fault of an LD (R215). -/
def ldFault (off : Nat) : Option Nat := if off % 8 = 0 then none else some 2

/-- The fault of an ST (R215). -/
def stFault (off : Nat) : Option Nat := if off % 8 ≠ 0 then some 2 else if off < 0x10000 then some 5 else none

/-- LD of half `h`, which executes. -/
def State.seqLd (s : State) (h : HalfId) (wd wa : BitVec 5) (imm : BitVec 16) : State :=
  let s := s.upd h Half.traceIns
  let off := (s.half h).spOff wa imm
  match ldFault off with
  | some c => s.upd h (fun x => x.seqFault c)
  | none =>
    let (_, bs, t) := s.busRead h .seq (spAddr 0 + off) 8
    t.upd h (fun x => (x.setW wd (BitVec.ofNat 64 (leNat bs))).advPc.fetched)

/-- LD (R196, R215). -/
def execLd (h : HalfId) (wd wa : BitVec 5) (imm : BitVec 16) (s : State) : Host.Outcome State Fault Refusal :=
  .next (if s.canExec h (.ld h wd wa imm) then s.seqLd h wd wa imm else s)

/-- ST of half `h`, which executes. -/
def State.seqSt (s : State) (h : HalfId) (wd wa : BitVec 5) (imm : BitVec 16) : State :=
  let s := s.upd h Half.traceIns
  let off := (s.half h).spOff wa imm
  match stFault off with
  | some c => s.upd h (fun x => x.seqFault c)
  | none =>
    let (_, t) := s.busWrite h .seq (spAddr 0 + off) (leBytes 8 ((s.half h).w wd).toNat)
    t.upd h (fun x => x.advPc.fetched)

/-- ST (R196, R215). -/
def execSt (h : HalfId) (wd wa : BitVec 5) (imm : BitVec 16) (s : State) : Host.Outcome State Fault Refusal :=
  .next (if s.canExec h (.st h wd wa imm) then s.seqSt h wd wa imm else s)

/-- RDC of half `h`, which executes: an access that ends in an error is CTRL_ERR (R215). -/
def State.seqRdc (s : State) (h : HalfId) (wd wa : BitVec 5) (imm : BitVec 16) : State :=
  let s := s.upd h Half.traceIns
  let (st, bs, t) := s.busRead h .seq ((s.half h).ctlAddr wa imm) 4
  if st = 0#2 then t.upd h (fun x => (x.setW wd (BitVec.ofNat 64 (leNat bs))).advPc.fetched)
  else s.upd h (fun x => x.seqFault 4)

/-- RDC (R196, R215). -/
def execRdc (h : HalfId) (wd wa : BitVec 5) (imm : BitVec 16) (s : State) : Host.Outcome State Fault Refusal :=
  .next (if s.canExec h (.rdc h wd wa imm) then s.seqRdc h wd wa imm else s)

/-- WRC of half `h`, which executes. The write may halt the sequencer itself: the next word is then not fetched. -/
def State.seqWrc (s : State) (h : HalfId) (wd wa : BitVec 5) (imm : BitVec 16) : State :=
  let s := s.upd h Half.traceIns
  let x := s.half h
  let (st, t) := (s.upd h Half.advPc).busWrite h .seq (x.ctlAddr wa imm) (leBytes 4 ((x.w wd).toNat % 2 ^ 32))
  if st = 0#2 then t.upd h Half.fetched else s.upd h (fun x => x.seqFault 4)

/-- WRC (R196, R215). -/
def execWrc (h : HalfId) (wd wa : BitVec 5) (imm : BitVec 16) (s : State) : Host.Outcome State Fault Refusal :=
  .next (if s.canExec h (.wrc h wd wa imm) then s.seqWrc h wd wa imm else s)

/-! ## Control flow (R196) -/

/-- HALT (R193, R196). -/
def execHalt (h : HalfId) (s : State) : Host.Outcome State Fault Refusal :=
  .next (if s.canExec h (.halt h) then
      s.upd h (fun x => let y := x.traceIns.advPc
                        { y with seq := { y.seq with exec := .halted } })
    else s)

/-- PC takes a new value; the trace tells of it (R533). -/
def Half.jumpTo (x : Half) (pc : BitVec 14) : Half :=
  let y := x.trace 1 1 [BitVec.ofNat 32 (x.seq.pc.toNat * 2 ^ 16 + pc.toNat)]
  ({ y with seq := { y.seq with pc := pc } } : Half).fetched

/-- A branch to PC + 1 + sext(IMM) where `p` holds of wd and wa; else on to the next word. -/
def State.branch (s : State) (h : HalfId) (i : Instr) (wd wa : BitVec 5) (imm : BitVec 16) (p : DWord → DWord → Bool) : State :=
  if s.canExec h i then
    s.upd h (fun x =>
      let y := x.traceIns
      if p (y.w wd) (y.w wa) then y.jumpTo (y.seq.pc + 1#14 + (sext16 imm).setWidth 14) else y.advPc.fetched)
  else s

/-- BEQ (R196). -/
def execBeq (h : HalfId) (wd wa : BitVec 5) (imm : BitVec 16) (s : State) : Host.Outcome State Fault Refusal :=
  .next (s.branch h (.beq h wd wa imm) wd wa imm (fun a b => a == b))
/-- BNE (R196). -/
def execBne (h : HalfId) (wd wa : BitVec 5) (imm : BitVec 16) (s : State) : Host.Outcome State Fault Refusal :=
  .next (s.branch h (.bne h wd wa imm) wd wa imm (fun a b => a != b))
/-- BLT (R196): signed. -/
def execBlt (h : HalfId) (wd wa : BitVec 5) (imm : BitVec 16) (s : State) : Host.Outcome State Fault Refusal :=
  .next (s.branch h (.blt h wd wa imm) wd wa imm (fun a b => a.slt b))
/-- BGE (R196): signed. -/
def execBge (h : HalfId) (wd wa : BitVec 5) (imm : BitVec 16) (s : State) : Host.Outcome State Fault Refusal :=
  .next (s.branch h (.bge h wd wa imm) wd wa imm (fun a b => !a.slt b))
/-- BLTU (R196): unsigned. -/
def execBltu (h : HalfId) (wd wa : BitVec 5) (imm : BitVec 16) (s : State) : Host.Outcome State Fault Refusal :=
  .next (s.branch h (.bltu h wd wa imm) wd wa imm (fun a b => a.ult b))
/-- BGEU (R196): unsigned. -/
def execBgeu (h : HalfId) (wd wa : BitVec 5) (imm : BitVec 16) (s : State) : Host.Outcome State Fault Refusal :=
  .next (s.branch h (.bgeu h wd wa imm) wd wa imm (fun a b => !a.ult b))

/-- JMP (R196): OFF is signed; PC counts modulo 2^14. -/
def execJmp (h : HalfId) (off : BitVec 21) (s : State) : Host.Outcome State Fault Refusal :=
  .next (if s.canExec h (.jmp h off) then
      s.upd h (fun x => let y := x.traceIns
                        y.jumpTo (y.seq.pc + 1#14 + off.setWidth 14))
    else s)

/-- CALL (R196): wd takes the return PC. -/
def execCall (h : HalfId) (wd : BitVec 5) (off : BitVec 21) (s : State) : Host.Outcome State Fault Refusal :=
  .next (if s.canExec h (.call h wd off) then
      s.upd h (fun x => let y := x.traceIns
                        (y.setW wd ((y.seq.pc + 1#14).setWidth 64)).jumpTo (y.seq.pc + 1#14 + off.setWidth 14))
    else s)

/-- JMPR (R196): PC takes wa[13:0]. -/
def execJmpr (h : HalfId) (wa : BitVec 5) (s : State) : Host.Outcome State Fault Refusal :=
  .next (if s.canExec h (.jmpr h wa) then
      s.upd h (fun x => let y := x.traceIns
                        y.jumpTo ((y.w wa).setWidth 14))
    else s)

/-! ## Run control (R197, R199) -/

/-- The sequencer enters WAIT in a blocking instruction (R193). -/
def Half.enterWait (x : Half) (w : Wait) : Half := { x with seq := { x.seq with exec := .wait, wait := w } }

/-- A run-control instruction that completes at once with a status word. -/
def Half.runCtlDone (x : Half) (wd : BitVec 5) (op : Nat) (v : DWord) : Half :=
  ((x.traceCtl op v).setW wd v).advPc.fetched

/-- The sequencer of `h` executes an instruction whose effect is `f`. -/
def State.seqExec (s : State) (h : HalfId) (i : Instr) (f : State → State) : State :=
  if s.canExec h i then (f (s.upd h Half.traceIns)).settle else s

/-- Completion with a status word in half `h`. -/
def State.runCtlDone (s : State) (h : HalfId) (wd : BitVec 5) (op code : Nat) : State :=
  s.upd h (fun x => x.runCtlDone wd op (statusWord code 0))

/-- GO (R187 to R189, R197). -/
def execGo (h : HalfId) (wd : BitVec 5) (s : State) : Host.Outcome State Fault Refusal :=
  .next (s.seqExec h (.go h wd) (fun s => let (c, t) := s.goRun h
                               t.runCtlDone h wd 0x30 c))

/-- RUNC (R191, R197): the counted hold falls on the boundary of cycle c0 + wa − 1. -/
def State.seqRunc (s : State) (h : HalfId) (wd wa : BitVec 5) : State :=
  let n := (s.half h).w wa
  if n = 0#64 then s.runCtlDone h wd 0x31 0
  else
    let (c, t) := s.goRun h
    if c ≠ 0 then t.runCtlDone h wd 0x31 c
    else
      let at_ := (t.half h).nextCyc + n - 1#64
      (t.grp h (fun x => { x with run := { x.run with holdCyc := some at_ } })).upd h (fun x => x.enterWait (.run wd 0x31))

/-- RUNC (R191, R197). -/
def execRunc (h : HalfId) (wd wa : BitVec 5) (s : State) : Host.Outcome State Fault Refusal :=
  .next (s.seqExec h (.runc h wd wa) (fun s => s.seqRunc h wd wa))

/-- RUNT (R191, R197): the timed hold falls on the last boundary of the last tick at or before wa; where none remains,
nothing starts. -/
def State.seqRunt (s : State) (h : HalfId) (wd wa : BitVec 5) : State :=
  let vt := (s.half h).w wa
  let (c, t) := s.goRun h
  if c ≠ 0 then t.runCtlDone h wd 0x32 c
  else if !t.ticksUpTo h vt then s.runCtlDone h wd 0x32 0
  else (t.grp h (fun x => { x with run := { x.run with holdVt := some vt } })).upd h (fun x => x.enterWait (.run wd 0x32))

/-- RUNT (R191, R197). -/
def execRunt (h : HalfId) (wd wa : BitVec 5) (s : State) : Host.Outcome State Fault Refusal :=
  .next (s.seqExec h (.runt h wd wa) (fun s => s.seqRunt h wd wa))

/-- HOLD (R190, R197): a held run is held already. -/
def State.seqHold (s : State) (h : HalfId) (wd : BitVec 5) : State :=
  let x := s.half h
  if !x.inRun then s.runCtlDone h wd 0x33 1
  else if x.run.state == .held then s.runCtlDone h wd 0x33 8
  else s.upd h (fun x => (x.request 8 none false).enterWait (.hold wd))

/-- HOLD (R190, R197). -/
def execHold (h : HalfId) (wd : BitVec 5) (s : State) : Host.Outcome State Fault Refusal :=
  .next (s.seqExec h (.hold h wd) (fun s => s.seqHold h wd))

/-- STOP (R190, R191, R197): in HELD it takes effect at once. -/
def State.seqStop (s : State) (h : HalfId) (wd : BitVec 5) : State :=
  if !(s.half h).inRun then s.runCtlDone h wd 0x34 1
  else s.upd h (fun x => (x.request 9 none true).enterWait (.stop wd))

/-- STOP (R190, R191, R197). -/
def execStop (h : HalfId) (wd : BitVec 5) (s : State) : Host.Outcome State Fault Refusal :=
  .next (s.seqExec h (.stop h wd) (fun s => s.seqStop h wd))

/-- WAITE (R196, R198): a pending enabled event ends it at once; wa = 0 sets no time-out. -/
def execWaite (h : HalfId) (wd wa : BitVec 5) (s : State) : Host.Outcome State Fault Refusal :=
  .next (s.seqExec h (.waite h wd wa) (fun s => s.upd h (fun x =>
    let n := x.w wa
    (x.enterWait (.waite wd (if n = 0#64 then none else some n.toNat))).waiteCheck)))

/-- WAITE_TIMEOUT (R196): wa control cycles have gone by without an event. -/
def execWaiteTimeout (h : HalfId) (s : State) : Host.Outcome State Fault Refusal :=
  .next (match (s.half h).seq.wait with
    | .waite wd (some _) => if s.seqRuns h then s.upd h (fun x => x.endWait wd (BitVec.allOnes 64)) else s
    | _ => s)

/-- The refusal of a DOMEN, if any (R172, R197). -/
def State.domenRefusal (s : State) (h : HalfId) (dom : Nat) (on : Bool) : Option Nat :=
  let x := s.half h
  if x.run.state != .held then some 1
  else match s.domDesc h x.run.mode dom with
    | none => some 6
    | some d =>
      if on && !d.en && (!d.valid ||
          (!d.ext && decide (2 ^ 48 ≤ vtDist x.run.vt (firstEdgeAfter d x.run.vt).vt))) then some 6
      else none

/-- The effect of a DOMEN that is not refused (R197, R342): between ticks the decision sees the change. -/
def State.domenApply (s : State) (h : HalfId) (dom : Nat) (on : Bool) : State :=
  if s.domEnabled h (s.half h).run.mode dom = on then s
  else
    let t := ((s.domSet h dom on).upd h (fun x => x.noteControl dom (.control (if on then 3 else 4) 0 true []))).sameJournal h
    if (t.half h).run.rest.isEmpty then t.redecide h else t

/-- DOMEN (R196, R197): EN of domain IMM[7:0] takes IMM[8]. -/
def execDomen (h : HalfId) (wd : BitVec 5) (imm : BitVec 16) (s : State) : Host.Outcome State Fault Refusal :=
  let dom := imm.toNat % 256
  .next (s.seqExec h (.domen h wd imm) (fun s =>
    match s.domenRefusal h dom (imm.getLsbD 8) with
    | some c => s.upd h (fun x => (x.setW wd (statusWord c 0)).advPc.fetched)
    | none => (s.domenApply h dom (imm.getLsbD 8)).upd h (fun x => (x.setW wd (statusWord 0 0)).advPc.fetched)))

/-! ## Restore and fallow (R363, R555) -/

/-- RESTORE (R196, R363): its status comes with RESTORE_DONE. -/
def State.seqRestore (s : State) (h : HalfId) (wd wa : BitVec 5) : State :=
  let x := s.half h
  let n := (x.w wa).toNat
  if !(x.run.state == .stopped || x.run.state == .faulted) then s.runCtlDone h wd 0x36 1
  else if s.anyGrp h (fun y => !y.asr.gens.any (fun g => g.gen == n)) then s.runCtlDone h wd 0x36 0x38
  else (s.grp h (fun y => { y with asr := { y.asr with restoring := some n } })).upd h (fun y => y.enterWait (.restore wd))

/-- RESTORE (R196, R363). -/
def execRestore (h : HalfId) (wd wa : BitVec 5) (s : State) : Host.Outcome State Fault Refusal :=
  .next (s.seqExec h (.restore h wd wa) (fun s => s.seqRestore h wd wa))

/-- FALLOW (R196, R555, R556): it ends with the wake. -/
def execFallow (h : HalfId) (wd : BitVec 5) (s : State) : Host.Outcome State Fault Refusal :=
  .next (s.seqExec h (.fallow h wd) (fun s =>
    if s.mayFallow h then (s.upd h (fun x => x.enterWait (.fallow wd))).fallowEnter h .seq
    else s.runCtlDone h wd 0x37 1))

/-! ## Events (R198, R212) -/

/-- The events that exist: those of R198 that are not reserved. -/
def eventOk (n : Nat) : Bool := decide (n < 281)

/-- EVEN (R196, R212). -/
def execEven (h : HalfId) (imm : BitVec 16) (s : State) : Host.Outcome State Fault Refusal :=
  let n := imm.toNat % 512
  .next (s.seqOp h (.even h imm) (fun x => if eventOk n then x.setRBit (Reg.seqEvtEn (n / 32)) (n % 32) true else x))

/-- EVDIS (R196, R212). -/
def execEvdis (h : HalfId) (imm : BitVec 16) (s : State) : Host.Outcome State Fault Refusal :=
  let n := imm.toNat % 512
  .next (s.seqOp h (.evdis h imm) (fun x => if eventOk n then x.setRBit (Reg.seqEvtEn (n / 32)) (n % 32) false else x))

/-- EVCLR (R196, R212). -/
def execEvclr (h : HalfId) (imm : BitVec 16) (s : State) : Host.Outcome State Fault Refusal :=
  let n := imm.toNat % 512
  .next (s.seqOp h (.evclr h imm) (fun x => if eventOk n then x.setPendFlag n false else x))

/-- EVACT (R196, R198, R212): the action of event IMM[8:0] takes IMM[10:9]. -/
def execEvact (h : HalfId) (imm : BitVec 16) (s : State) : Host.Outcome State Fault Refusal :=
  let n := imm.toNat % 512
  .next (s.seqOp h (.evact h imm) (fun x =>
    if eventOk n then x.setRFld (Reg.seqEvtAct (n / 16)) (2 * (n % 16)) 2 (imm.toNat / 512 % 4) else x))

/-! ## Engines, checkpoints, signals (R196, R291, R295, R350) -/

/-- An engine number that R196 does not give names no engine, and the status is one the specification leaves open. -/
def Half.noEngine (x : Half) (wd : BitVec 5) (op : Nat) : Half :=
  let (v, y) := x.fresh 64
  y.runCtlDone wd op v

/-- ARM (R196, R291, R294): its status comes with the completion of the arm. -/
def execArm (h : HalfId) (wd wa : BitVec 5) (imm : BitVec 16) (s : State) : Host.Outcome State Fault Refusal :=
  .next (s.seqExec h (.arm h wd wa imm) (fun s =>
    match engOf (imm.toNat % 256) with
    | some (k, e) =>
      let idx := ((s.half h).w wa).toNat
      (s.upd h (fun x => x.enterWait (.arm wd))).armRequest h k e idx true
    | none => s.upd h (fun x => x.noEngine wd 0x3C)))

/-- ABRT (R196, R291, R295): its status comes when the abort takes effect. -/
def execAbrt (h : HalfId) (wd : BitVec 5) (imm : BitVec 16) (s : State) : Host.Outcome State Fault Refusal :=
  .next (s.seqExec h (.abrt h wd imm) (fun s =>
    match engOf (imm.toNat % 256) with
    | some (k, e) => (s.upd h (fun x => x.enterWait (.abrt wd))).abortRequest h k e true
    | none => s.upd h (fun x => x.noEngine wd 0x3D)))

/-- CKPT (R196, R350, R363): with IMM[0] = 1 it ends with the commit. -/
def State.seqCkpt (s : State) (h : HalfId) (wd : BitVec 5) (wait : Bool) : State :=
  if !(s.half h).asr.active then s.upd h (fun x => x.runCtlDone wd 0x3E (BitVec.allOnes 64))
  else
    let t := s.grp h Half.ckptAsk
    if wait then t.upd h (fun x => x.enterWait (.ckpt wd))
    else t.upd h (fun x => x.runCtlDone wd 0x3E (BitVec.ofNat 64 x.nextGen))

/-- CKPT (R196, R350, R363). -/
def execCkpt (h : HalfId) (wd : BitVec 5) (imm : BitVec 16) (s : State) : Host.Outcome State Fault Refusal :=
  .next (s.seqExec h (.ckpt h wd imm) (fun s => s.seqCkpt h wd (imm.getLsbD 0)))

/-- SIG (R196): `SEQ_HOSTMSG` takes wa, and vector IMM[7:0] is raised. -/
def execSig (h : HalfId) (wa : BitVec 5) (imm : BitVec 16) (s : State) : Host.Outcome State Fault Refusal :=
  .next (s.seqOp h (.sig h wa imm) (fun x =>
    (x.setReg64 Reg.seqHostmsgLo Reg.seqHostmsgHi (x.w wa).toNat).msix (imm.toNat % 256)))

end Sys2Proof.Machine
end

