-- ==== Sys2Proof/Machine/Dispatch.lean ====
section
/-!
DEFINITION. Machine/Dispatch.lean: the meaning of every command, one arm per row of the table.
-/

namespace Sys2Proof.Machine

def exec (i : Instr) (s : State) : Host.Outcome State Fault Refusal :=
  match i with
  | .registerWrite h m addr data => Sys2Proof.Machine.execRegisterWrite h m addr data s
  | .memoryRead h m addr len => Sys2Proof.Machine.execMemoryRead h m addr len s
  | .memoryWrite h m addr data => Sys2Proof.Machine.execMemoryWrite h m addr data s
  | .bitSetAliasWrite h m addr data => Sys2Proof.Machine.execBitSetAliasWrite h m addr data s
  | .bitClearAliasWrite h m addr data => Sys2Proof.Machine.execBitClearAliasWrite h m addr data s
  | .tick h => Sys2Proof.Machine.execTick h s
  | .idleDecision h => Sys2Proof.Machine.execIdleDecision h s
  | .bpNop x bp => Sys2Proof.Machine.execBpNop x bp s
  | .eval x w => Sys2Proof.Machine.execEval x w s
  | .evalc x w => Sys2Proof.Machine.execEvalc x w s
  | .trig x w => Sys2Proof.Machine.execTrig x w s
  | .bpAssert x w => Sys2Proof.Machine.execBpAssert x w s
  | .switchInstruction x tile => Sys2Proof.Machine.execSwitchInstruction x tile s
  | .stallPointRelease h n => Sys2Proof.Machine.execStallPointRelease h n s
  | .eccWriteBack h tile => Sys2Proof.Machine.execEccWriteBack h tile s
  | .bridgeReceive h tile e => Sys2Proof.Machine.execBridgeReceive h tile e s
  | .bridgeTraining => Sys2Proof.Machine.execBridgeTraining s
  | .bridgeDown => Sys2Proof.Machine.execBridgeDown s
  | .bpaStatusWrite h m tile v => Sys2Proof.Machine.execBpaStatusWrite h m tile v s
  | .xchFaultStatusWrite h m v => Sys2Proof.Machine.execXchFaultStatusWrite h m v s
  | .xchBrgStatusWrite h m v => Sys2Proof.Machine.execXchBrgStatusWrite h m v s
  | .bundleEnable h m b v => Sys2Proof.Machine.execBundleEnable h m b v s
  | .bundleLock h b past => Sys2Proof.Machine.execBundleLock h b past s
  | .bundleAlign h b => Sys2Proof.Machine.execBundleAlign h b s
  | .bundleMeasureDone h b => Sys2Proof.Machine.execBundleMeasureDone h b s
  | .bundleTimeout h b => Sys2Proof.Machine.execBundleTimeout h b s
  | .bundleLaneLoss h b lanes => Sys2Proof.Machine.execBundleLaneLoss h b lanes s
  | .bundleDownTimer h b => Sys2Proof.Machine.execBundleDownTimer h b s
  | .trainBlock h b w => Sys2Proof.Machine.execTrainBlock h b w s
  | .runBlock h b q w => Sys2Proof.Machine.execRunBlock h b q w s
  | .startBlock h b w => Sys2Proof.Machine.execStartBlock h b w s
  | .abortBlock h b w => Sys2Proof.Machine.execAbortBlock h b w s
  | .dataPacket h b chan pseq payload => Sys2Proof.Machine.execDataPacket h b chan pseq payload s
  | .ackPacket h b ackseq => Sys2Proof.Machine.execAckPacket h b ackseq s
  | .nakPacket h b ackseq => Sys2Proof.Machine.execNakPacket h b ackseq s
  | .creditPacket h b chan granted => Sys2Proof.Machine.execCreditPacket h b chan granted s
  | .creditRefresh h b => Sys2Proof.Machine.execCreditRefresh h b s
  | .linkedStart h => Sys2Proof.Machine.execLinkedStart h s
  | .linkedStallEval h => Sys2Proof.Machine.execLinkedStallEval h s
  | .nop h => Sys2Proof.Machine.execNop h s
  | .add h wd wa wb => Sys2Proof.Machine.execAdd h wd wa wb s
  | .sub h wd wa wb => Sys2Proof.Machine.execSub h wd wa wb s
  | .and h wd wa wb => Sys2Proof.Machine.execAnd h wd wa wb s
  | .or h wd wa wb => Sys2Proof.Machine.execOr h wd wa wb s
  | .xor h wd wa wb => Sys2Proof.Machine.execXor h wd wa wb s
  | .shl h wd wa wb => Sys2Proof.Machine.execShl h wd wa wb s
  | .shr h wd wa wb => Sys2Proof.Machine.execShr h wd wa wb s
  | .sra h wd wa wb => Sys2Proof.Machine.execSra h wd wa wb s
  | .clt h wd wa wb => Sys2Proof.Machine.execClt h wd wa wb s
  | .cltu h wd wa wb => Sys2Proof.Machine.execCltu h wd wa wb s
  | .mul h wd wa wb => Sys2Proof.Machine.execMul h wd wa wb s
  | .addi h wd wa imm => Sys2Proof.Machine.execAddi h wd wa imm s
  | .andi h wd wa imm => Sys2Proof.Machine.execAndi h wd wa imm s
  | .ori h wd wa imm => Sys2Proof.Machine.execOri h wd wa imm s
  | .xori h wd wa imm => Sys2Proof.Machine.execXori h wd wa imm s
  | .shli h wd wa imm => Sys2Proof.Machine.execShli h wd wa imm s
  | .shri h wd wa imm => Sys2Proof.Machine.execShri h wd wa imm s
  | .uppi h wd imm => Sys2Proof.Machine.execUppi h wd imm s
  | .ld h wd wa imm => Sys2Proof.Machine.execLd h wd wa imm s
  | .st h wd wa imm => Sys2Proof.Machine.execSt h wd wa imm s
  | .rdc h wd wa imm => Sys2Proof.Machine.execRdc h wd wa imm s
  | .wrc h wd wa imm => Sys2Proof.Machine.execWrc h wd wa imm s
  | .rdt h wd imm => Sys2Proof.Machine.execRdt h wd imm s
  | .domen h wd imm => Sys2Proof.Machine.execDomen h wd imm s
  | .halt h => Sys2Proof.Machine.execHalt h s
  | .beq h wd wa imm => Sys2Proof.Machine.execBeq h wd wa imm s
  | .bne h wd wa imm => Sys2Proof.Machine.execBne h wd wa imm s
  | .blt h wd wa imm => Sys2Proof.Machine.execBlt h wd wa imm s
  | .bge h wd wa imm => Sys2Proof.Machine.execBge h wd wa imm s
  | .bltu h wd wa imm => Sys2Proof.Machine.execBltu h wd wa imm s
  | .bgeu h wd wa imm => Sys2Proof.Machine.execBgeu h wd wa imm s
  | .jmp h off => Sys2Proof.Machine.execJmp h off s
  | .call h wd off => Sys2Proof.Machine.execCall h wd off s
  | .jmpr h wa => Sys2Proof.Machine.execJmpr h wa s
  | .go h wd => Sys2Proof.Machine.execGo h wd s
  | .runc h wd wa => Sys2Proof.Machine.execRunc h wd wa s
  | .runt h wd wa => Sys2Proof.Machine.execRunt h wd wa s
  | .hold h wd => Sys2Proof.Machine.execHold h wd s
  | .stop h wd => Sys2Proof.Machine.execStop h wd s
  | .waite h wd wa => Sys2Proof.Machine.execWaite h wd wa s
  | .waiteTimeout h => Sys2Proof.Machine.execWaiteTimeout h s
  | .restore h wd wa => Sys2Proof.Machine.execRestore h wd wa s
  | .fallow h wd => Sys2Proof.Machine.execFallow h wd s
  | .even h imm => Sys2Proof.Machine.execEven h imm s
  | .evdis h imm => Sys2Proof.Machine.execEvdis h imm s
  | .evclr h imm => Sys2Proof.Machine.execEvclr h imm s
  | .evact h imm => Sys2Proof.Machine.execEvact h imm s
  | .arm h wd wa imm => Sys2Proof.Machine.execArm h wd wa imm s
  | .abrt h wd imm => Sys2Proof.Machine.execAbrt h wd imm s
  | .ckpt h wd imm => Sys2Proof.Machine.execCkpt h wd imm s
  | .sig h wa imm => Sys2Proof.Machine.execSig h wa imm s
  | .doorbell h m => Sys2Proof.Machine.execDoorbell h m s
  | .stopReq h m => Sys2Proof.Machine.execStopReq h m s
  | .releaseReq h m => Sys2Proof.Machine.execReleaseReq h m s
  | .holdReq h m => Sys2Proof.Machine.execHoldReq h m s
  | .seqCtrlHalt h m => Sys2Proof.Machine.execSeqCtrlHalt h m s
  | .seqExec h m => Sys2Proof.Machine.execSeqExec h m s
  | .seqFaultClear h m v => Sys2Proof.Machine.execSeqFaultClear h m v s
  | .seqTimerExpiry h => Sys2Proof.Machine.execSeqTimerExpiry h s
  | .edgDescWrite h m slot word v => Sys2Proof.Machine.execEdgDescWrite h m slot word v s
  | .extEdgeEvent h dom falling => Sys2Proof.Machine.execExtEdgeEvent h dom falling s
  | .bankAccess h => Sys2Proof.Machine.execBankAccess h s
  | .bankReadReturn h => Sys2Proof.Machine.execBankReadReturn h s
  | .hbmReadReturn h tile port => Sys2Proof.Machine.execHbmReadReturn h tile port s
  | .hbmPostedWrite h tile port => Sys2Proof.Machine.execHbmPostedWrite h tile port s
  | .hbmPatrol h addr => Sys2Proof.Machine.execHbmPatrol h addr s
  | .memErrStatusWrite h m v => Sys2Proof.Machine.execMemErrStatusWrite h m v s
  | .marchStart h m v => Sys2Proof.Machine.execMarchStart h m v s
  | .marchAbort h m found => Sys2Proof.Machine.execMarchAbort h m found s
  | .marchDone h found => Sys2Proof.Machine.execMarchDone h found s
  | .bgtEnable h m v => Sys2Proof.Machine.execBgtEnable h m v s
  | .bgtRegion h failBit => Sys2Proof.Machine.execBgtRegion h failBit s
  | .sqDoorbell h m q tail => Sys2Proof.Machine.execSqDoorbell h m q tail s
  | .create h q entry => Sys2Proof.Machine.execCreate h q entry s
  | .fill h q entry => Sys2Proof.Machine.execFill h q entry s
  | .sqAbort h q entry => Sys2Proof.Machine.execSqAbort h q entry s
  | .hOperandAccept h tid payload => Sys2Proof.Machine.execHOperandAccept h tid payload s
  | .dispatch h => Sys2Proof.Machine.execDispatch h s
  | .transactionComplete h tid => Sys2Proof.Machine.execTransactionComplete h tid s
  | .txeTimeout h tid => Sys2Proof.Machine.execTxeTimeout h tid s
  | .txeAbort h m v => Sys2Proof.Machine.execTxeAbort h m v s
  | .cqHeadWrite h m q v => Sys2Proof.Machine.execCqHeadWrite h m q v s
  | .sqEnable h m q v => Sys2Proof.Machine.execSqEnable h m q v s
  | .cqEnable h m q v => Sys2Proof.Machine.execCqEnable h m q v s
  | .engineArm h m k e v => Sys2Proof.Machine.execEngineArm h m k e v s
  | .armComplete h k e => Sys2Proof.Machine.execArmComplete h k e s
  | .engineAbort h m k e v => Sys2Proof.Machine.execEngineAbort h m k e v s
  | .xoAction h e => Sys2Proof.Machine.execXoAction h e s
  | .xoPulseEnd h e => Sys2Proof.Machine.execXoPulseEnd h e s
  | .recordDrain h c => Sys2Proof.Machine.execRecordDrain h c s
  | .hostStreamWrite h c ok => Sys2Proof.Machine.execHostStreamWrite h c ok s
  | .capHsHeadWrite h m c v => Sys2Proof.Machine.execCapHsHeadWrite h m c v s
  | .playbackPrefetch h p => Sys2Proof.Machine.execPlaybackPrefetch h p s
  | .asrEnWrite h m v => Sys2Proof.Machine.execAsrEnWrite h m v s
  | .ckptReq h m => Sys2Proof.Machine.execCkptReq h m s
  | .abortCkpt h m => Sys2Proof.Machine.execAbortCkpt h m s
  | .scheduledCheckpoint h => Sys2Proof.Machine.execScheduledCheckpoint h s
  | .checkpointCopyDone h ok => Sys2Proof.Machine.execCheckpointCopyDone h ok s
  | .checkpointCommit h ok => Sys2Proof.Machine.execCheckpointCommit h ok s
  | .journalConfirm h jseq => Sys2Proof.Machine.execJournalConfirm h jseq s
  | .signatureCompare h => Sys2Proof.Machine.execSignatureCompare h s
  | .recovery h c => Sys2Proof.Machine.execRecovery h c s
  | .storeRewriteDone h => Sys2Proof.Machine.execStoreRewriteDone h s
  | .restoreDone h newReadable oldReadable => Sys2Proof.Machine.execRestoreDone h newReadable oldReadable s
  | .replayEnd h => Sys2Proof.Machine.execReplayEnd h s
  | .diagnosis h => Sys2Proof.Machine.execDiagnosis h s
  | .diagnosisDone h fail0 fail1 => Sys2Proof.Machine.execDiagnosisDone h fail0 fail1 s
  | .heartbeat h sideband => Sys2Proof.Machine.execHeartbeat h sideband s
  | .heartbeatLoss h c => Sys2Proof.Machine.execHeartbeatLoss h c s
  | .takeover h => Sys2Proof.Machine.execTakeover h s
  | .asrExport h m partner => Sys2Proof.Machine.execAsrExport h m partner s
  | .asrImport h m => Sys2Proof.Machine.execAsrImport h m s
  | .exportDone h => Sys2Proof.Machine.execExportDone h s
  | .importDone h => Sys2Proof.Machine.execImportDone h s
  | .fabricLoad h m v => Sys2Proof.Machine.execFabricLoad h m v s
  | .fabricLoadCommit h => Sys2Proof.Machine.execFabricLoadCommit h s
  | .fabricRelease h m v => Sys2Proof.Machine.execFabricRelease h m v s
  | .fabricReleaseStage h => Sys2Proof.Machine.execFabricReleaseStage h s
  | .afbAbort h m v => Sys2Proof.Machine.execAfbAbort h m v s
  | .longLineContention h line sites => Sys2Proof.Machine.execLongLineContention h line sites s
  | .afbLlDisWrite h m hi v => Sys2Proof.Machine.execAfbLlDisWrite h m hi v s
  | .oscLock h k => Sys2Proof.Machine.execOscLock h k s
  | .trimPortWrite h k trim => Sys2Proof.Machine.execTrimPortWrite h k trim s
  | .flashProgram h m => Sys2Proof.Machine.execFlashProgram h m s
  | .flashErase h m => Sys2Proof.Machine.execFlashErase h m s
  | .flashRead h m => Sys2Proof.Machine.execFlashRead h m s
  | .flashCommandDone h => Sys2Proof.Machine.execFlashCommandDone h s
  | .channelPush h k bits => Sys2Proof.Machine.execChannelPush h k bits s
  | .fabricAck h c => Sys2Proof.Machine.execFabricAck h c s
  | .outHoldRelease h => Sys2Proof.Machine.execOutHoldRelease h s
  | .fabricDoorbell h q tail => Sys2Proof.Machine.execFabricDoorbell h q tail s
  | .fabricRequest h code => Sys2Proof.Machine.execFabricRequest h code s
  | .fabricHbmAccess h write addr data => Sys2Proof.Machine.execFabricHbmAccess h write addr data s
  | .pinFunctionSwitch h m off v => Sys2Proof.Machine.execPinFunctionSwitch h m off v s
  | .pinBankVioWrite h m v => Sys2Proof.Machine.execPinBankVioWrite h m v s
  | .vioSettled h bank => Sys2Proof.Machine.execVioSettled h bank s
  | .pinDataSet h m hi v => Sys2Proof.Machine.execPinDataSet h m hi v s
  | .pinDataClr h m hi v => Sys2Proof.Machine.execPinDataClr h m hi v s
  | .pinInputChange h pin level => Sys2Proof.Machine.execPinInputChange h pin level s
  | .debounceChange h pin => Sys2Proof.Machine.execDebounceChange h pin s
  | .pinDsnInWrite h m v => Sys2Proof.Machine.execPinDsnInWrite h m v s
  | .laneEnable h m l v => Sys2Proof.Machine.execLaneEnable h m l v s
  | .cdrLock h l => Sys2Proof.Machine.execCdrLock h l s
  | .laneLoss h l cdr => Sys2Proof.Machine.execLaneLoss h l cdr s
  | .quadRateWrite h m q v => Sys2Proof.Machine.execQuadRateWrite h m q v s
  | .pllLock h q pllB => Sys2Proof.Machine.execPllLock h q pllB s
  | .hostRequest h bar off write len data => Sys2Proof.Machine.execHostRequest h bar off write len data s
  | .linkDown h => Sys2Proof.Machine.execLinkDown h s
  | .linkUp h speed width => Sys2Proof.Machine.execLinkUp h speed width s
  | .msixUnmask h vec => Sys2Proof.Machine.execMsixUnmask h vec s
  | .hostFault h tid => Sys2Proof.Machine.execHostFault h tid s
  | .ethFrameReceive h f => Sys2Proof.Machine.execEthFrameReceive h f s
  | .ethFrameTransmit h => Sys2Proof.Machine.execEthFrameTransmit h s
  | .lnkMeCfgWrite h m v => Sys2Proof.Machine.execLnkMeCfgWrite h m v s
  | .ptmTimeSecLoRead h m => Sys2Proof.Machine.execPtmTimeSecLoRead h m s
  | .setTime h m v => Sys2Proof.Machine.execSetTime h m v s
  | .servoReset h m v => Sys2Proof.Machine.execServoReset h m v s
  | .announce h msg utcOffset clockClass steps => Sys2Proof.Machine.execAnnounce h msg utcOffset clockClass steps s
  | .sync h msg twoStep t1 correction t2 => Sys2Proof.Machine.execSync h msg twoStep t1 correction t2 s
  | .followUp h msg t1 correction => Sys2Proof.Machine.execFollowUp h msg t1 correction s
  | .delayResp h msg logMinDelay t4 correction => Sys2Proof.Machine.execDelayResp h msg logMinDelay t4 correction s
  | .delayReq h domB => Sys2Proof.Machine.execDelayReq h domB s
  | .masterTimeout h domB => Sys2Proof.Machine.execMasterTimeout h domB s
  | .holdoverExpiry h => Sys2Proof.Machine.execHoldoverExpiry h s
  | .tpoArm h m k v => Sys2Proof.Machine.execTpoArm h m k v s
  | .disarm h m k => Sys2Proof.Machine.execDisarm h m k s
  | .tpoEdge h k => Sys2Proof.Machine.execTpoEdge h k s
  | .ptmTxtsIdRead h m => Sys2Proof.Machine.execPtmTxtsIdRead h m s
  | .ptmTcapIdRead h m k => Sys2Proof.Machine.execPtmTcapIdRead h m k s
  | .ptmDsnWrite h m v => Sys2Proof.Machine.execPtmDsnWrite h m v s
  | .nocTimeout h c => Sys2Proof.Machine.execNocTimeout h c s
  | .probeMatch h k p => Sys2Proof.Machine.execProbeMatch h k p s
  | .probeClear h m k v => Sys2Proof.Machine.execProbeClear h m k v s
  | .traceEnable h m v => Sys2Proof.Machine.execTraceEnable h m v s
  | .trcGo h m => Sys2Proof.Machine.execTrcGo h m s
  | .trcRestart h m => Sys2Proof.Machine.execTrcRestart h m s
  | .tracePeriodicSync h => Sys2Proof.Machine.execTracePeriodicSync h s
  | .trcStwLogWrite h m v => Sys2Proof.Machine.execTrcStwLogWrite h m v s
  | .trcStwEndWrite h m => Sys2Proof.Machine.execTrcStwEndWrite h m s
  | .feedStateChange h feedB e tenMv => Sys2Proof.Machine.execFeedStateChange h feedB e tenMv s
  | .powerFail => Sys2Proof.Machine.execPowerFail s
  | .powerFailRelease => Sys2Proof.Machine.execPowerFailRelease s
  | .thermalSample h tj powerW => Sys2Proof.Machine.execThermalSample h tj powerW s
  | .throttleSwitch h => Sys2Proof.Machine.execThrottleSwitch h s
  | .sourceInvalid h src => Sys2Proof.Machine.execSourceInvalid h src s
  | .holdoverTimeout h => Sys2Proof.Machine.execHoldoverTimeout h s
  | .clkRefCfgWrite h m v => Sys2Proof.Machine.execClkRefCfgWrite h m v s
  | .wakeTimer h => Sys2Proof.Machine.execWakeTimer h s
  | .fallowExit h => Sys2Proof.Machine.execFallowExit h s
  | .por => Sys2Proof.Machine.execPor s
  | .modRst => Sys2Proof.Machine.execModRst s
  | .halfSw h m => Sys2Proof.Machine.execHalfSw h m s
  | .watchdog h => Sys2Proof.Machine.execWatchdog h s
  | .kick h m v => Sys2Proof.Machine.execKick h m v s
  | .perst h => Sys2Proof.Machine.execPerst h s
  | .hotReset h => Sys2Proof.Machine.execHotReset h s
  | .flr h => Sys2Proof.Machine.execFlr h s
  | .blockSw h m v => Sys2Proof.Machine.execBlockSw h m v s
  | .trst => Sys2Proof.Machine.execTrst s
  | .resetRelease h src => Sys2Proof.Machine.execResetRelease h src s
  | .releaseStage h ok flags => Sys2Proof.Machine.execReleaseStage h ok flags s
  | .mbxStatus h k => Sys2Proof.Machine.execMbxStatus h k s
  | .hostEnable h k => Sys2Proof.Machine.execHostEnable h k s
  | .loadImage h k => Sys2Proof.Machine.execLoadImage h k s
  | .mailboxFallow h k => Sys2Proof.Machine.execMailboxFallow h k s
  | .wake h k => Sys2Proof.Machine.execWake h k s
  | .halfReset h k => Sys2Proof.Machine.execHalfReset h k s
  | .readStop h k => Sys2Proof.Machine.execReadStop h k s
  | .clearStop h k => Sys2Proof.Machine.execClearStop h k s
  | .getMeas h k => Sys2Proof.Machine.execGetMeas h k s
  | .attest h k => Sys2Proof.Machine.execAttest h k s
  | .getCert h k => Sys2Proof.Machine.execGetCert h k s
  | .extend h k => Sys2Proof.Machine.execExtend h k s
  | .provision h k => Sys2Proof.Machine.execProvision h k s
  | .certWrite h k => Sys2Proof.Machine.execCertWrite h k s
  | .takeOwnership h k => Sys2Proof.Machine.execTakeOwnership h k s
  | .getNonce h k => Sys2Proof.Machine.execGetNonce h k s
  | .ownerAction h k => Sys2Proof.Machine.execOwnerAction h k s
  | .unlockPwd h k => Sys2Proof.Machine.execUnlockPwd h k s
  | .debugClose h k => Sys2Proof.Machine.execDebugClose h k s
  | .scrap h k => Sys2Proof.Machine.execScrap h k s
  | .fwStage h k => Sys2Proof.Machine.execFwStage h k s
  | .getVersion h => Sys2Proof.Machine.execGetVersion h s
  | .getCapabilities h => Sys2Proof.Machine.execGetCapabilities h s
  | .negotiateAlgorithms h => Sys2Proof.Machine.execNegotiateAlgorithms h s
  | .getDigests h => Sys2Proof.Machine.execGetDigests h s
  | .getCertificate h slot off len => Sys2Proof.Machine.execGetCertificate h slot off len s
  | .challenge h slot nonce => Sys2Proof.Machine.execChallenge h slot nonce s
  | .getMeasurements h index nonce => Sys2Proof.Machine.execGetMeasurements h index nonce s
  | .extest h drive enable => Sys2Proof.Machine.execExtest h drive enable s
  | .samplePreload h preload => Sys2Proof.Machine.execSamplePreload h preload s
  | .idcode h => Sys2Proof.Machine.execIdcode h s
  | .flashProg h write addr data => Sys2Proof.Machine.execFlashProg h write addr data s
  | .ctrlAccess h write addr v => Sys2Proof.Machine.execCtrlAccess h write addr v s
  | .stwHalt h halted => Sys2Proof.Machine.execStwHalt h halted s
  | .bypass h => Sys2Proof.Machine.execBypass h s
  | .tamperTrip h sensors => Sys2Proof.Machine.execTamperTrip h sensors s
  | .lockoutExpiry h => Sys2Proof.Machine.execLockoutExpiry h s
  | .nonceExpiry h => Sys2Proof.Machine.execNonceExpiry h s
  | .secLock h m v => Sys2Proof.Machine.execSecLock h m v s
  | .idleBlock h b w => Sys2Proof.Machine.execIdleBlock h b w s
  | .linkChg h blockLock hiBer => Sys2Proof.Machine.execLinkChg h blockLock hiBer s
  | .laneSync h l => Sys2Proof.Machine.execLaneSync h l s
  | .configurationRequest h c => Sys2Proof.Machine.execConfigurationRequest h c s
  | .sourceValid h src => Sys2Proof.Machine.execSourceValid h src s
  | .rootPllLock h => Sys2Proof.Machine.execRootPllLock h s
  | .stopRecordDone => Sys2Proof.Machine.execStopRecordDone s
  | .imageLoadDone h => Sys2Proof.Machine.execImageLoadDone h s
  | .domainNotValid h domB => Sys2Proof.Machine.execDomainNotValid h domB s
  | .revert h => Sys2Proof.Machine.execRevert h s

end Sys2Proof.Machine
end

