-- ==== Sys2Proof/Safety.lean ====
section
/-!
DEFINITION. Safety.lean: what counts as a safe state and a safe run of the module.
-/

namespace Sys2Proof.Machine

/-- Both halves keep their memory in canonical form, and each knows which half it is. -/
def State.wf (s : State) : Bool :=
  Memory.wf s.h0.mem && Memory.wf s.h1.mem && s.h0.self == .h0 && s.h1.self == .h1

/-- `k` steps from `s` end in a next state `t`: no step on the way stops. -/
def State.runs : Nat → State → State → Prop
  | 0, s, t => s = t
  | k + 1, s, t => ∃ u, step s = .next u ∧ u.runs k t

/-- The module never stops: R26 to R30 let no block refuse a step. -/
def State.Safe (s : State) : Prop := ∀ k, ∃ t, s.runs k t

end Sys2Proof.Machine
end

