-- ==== Sys2Proof/WellFormed.lean ====
section
/-!
DEFINITION. WellFormed.lean: the operands that the rules allow for each command.

A command whose operands break a rule here names something the module does not have: a bundle beyond the twelve of a
half, a lane beyond the forty-eight, a submission entry that is not 64 bytes long, an immediate bit that R602 requires to
be 0. `exec` is total and gives such a command an outcome all the same.
-/

namespace Sys2Proof

/-- An access of 1 byte or more within the 40-bit device address space (R42). -/
def accessOk (a n : Nat) : Bool := decide (1 ≤ n) && decide (a + n ≤ 2 ^ 40)

/-- An address of the half's 48 GiB of HBM (R42). -/
def hbmAddr (a : Nat) : Bool := decide (0x1000000000 ≤ a) && decide (a < 0x1C00000000)

/-- A PTP time has fewer than 10^9 nanoseconds (R487). -/
def timeOk (t : PtpTime) : Bool := decide (t.ns.toNat < 1000000000)

/-- The operands of a command are ones that the rules give it. -/
def WellFormed : Instr → Bool
  | .registerWrite _ _ addr data => accessOk addr.toNat data.length && decide (0x90000000 ≤ addr.toNat)
  | .memoryRead _ _ addr len => accessOk addr.toNat len
  | .memoryWrite _ _ addr data => accessOk addr.toNat data.length
  | .bitSetAliasWrite _ _ addr data => accessOk addr.toNat data.length
  | .bitClearAliasWrite _ _ addr data => accessOk addr.toNat data.length
  | .tick .. => true
  | .idleDecision .. => true
  | .bpNop .. => true
  | .eval .. => true
  | .evalc .. => true
  | .trig .. => true
  | .bpAssert .. => true
  | .switchInstruction .. => true
  | .stallPointRelease .. => true
  | .eccWriteBack .. => true
  | .bridgeReceive .. => true
  | .bridgeTraining => true
  | .bridgeDown => true
  | .bpaStatusWrite .. => true
  | .xchFaultStatusWrite .. => true
  | .xchBrgStatusWrite .. => true
  | .bundleEnable _ _ b _ => decide (b.toNat < 12)
  | .bundleLock _ b past => decide (b.toNat < 12) && decide (past.length ≤ 8)
  | .bundleAlign _ b => decide (b.toNat < 12)
  | .bundleMeasureDone _ b => decide (b.toNat < 12)
  | .bundleTimeout _ b => decide (b.toNat < 12)
  | .bundleLaneLoss _ b _ => decide (b.toNat < 12)
  | .bundleDownTimer _ b => decide (b.toNat < 12)
  | .trainBlock _ b w => decide (b.toNat < 12) && w.slices.length == 8
  | .runBlock _ b _ w => decide (b.toNat < 12) && w.slices.length == 8
  | .startBlock _ b w => decide (b.toNat < 12) && w.slices.length == 8
  | .abortBlock _ b w => decide (b.toNat < 12) && w.slices.length == 8
  | .dataPacket _ b _ _ payload => decide (b.toNat < 12) && decide (1 ≤ payload.length) && decide (payload.length ≤ 256)
  | .ackPacket _ b _ => decide (b.toNat < 12)
  | .nakPacket _ b _ => decide (b.toNat < 12)
  | .creditPacket _ b chan _ => decide (b.toNat < 12) && decide (1 ≤ chan.toNat)
  | .creditRefresh _ b => decide (b.toNat < 12)
  | .linkedStart .. => true
  | .linkedStallEval .. => true
  | .nop .. => true
  | .add .. => true
  | .sub .. => true
  | .and .. => true
  | .or .. => true
  | .xor .. => true
  | .shl .. => true
  | .shr .. => true
  | .sra .. => true
  | .clt .. => true
  | .cltu .. => true
  | .mul .. => true
  | .addi .. => true
  | .andi .. => true
  | .ori .. => true
  | .xori .. => true
  | .shli _ _ _ imm => decide (imm.toNat < 64)
  | .shri _ _ _ imm => decide (imm.toNat < 64)
  | .uppi .. => true
  | .ld .. => true
  | .st .. => true
  | .rdc .. => true
  | .wrc .. => true
  | .rdt _ _ imm => decide (imm.toNat < 16)
  | .domen _ _ imm => decide (imm.toNat < 512)
  | .halt .. => true
  | .beq .. => true
  | .bne .. => true
  | .blt .. => true
  | .bge .. => true
  | .bltu .. => true
  | .bgeu .. => true
  | .jmp .. => true
  | .call .. => true
  | .jmpr .. => true
  | .go .. => true
  | .runc .. => true
  | .runt .. => true
  | .hold .. => true
  | .stop .. => true
  | .waite .. => true
  | .waiteTimeout .. => true
  | .restore .. => true
  | .fallow .. => true
  | .even _ imm => decide (imm.toNat < 512)
  | .evdis _ imm => decide (imm.toNat < 512)
  | .evclr _ imm => decide (imm.toNat < 512)
  | .evact _ imm => decide (imm.toNat < 2048)
  | .arm _ _ _ imm => decide (imm.toNat < 256)
  | .abrt _ _ imm => decide (imm.toNat < 256)
  | .ckpt _ _ imm => decide (imm.toNat < 2)
  | .sig _ _ imm => decide (imm.toNat < 256)
  | .doorbell .. => true
  | .stopReq .. => true
  | .releaseReq .. => true
  | .holdReq .. => true
  | .seqCtrlHalt .. => true
  | .seqExec .. => true
  | .seqFaultClear .. => true
  | .seqTimerExpiry .. => true
  | .edgDescWrite .. => true
  | .extEdgeEvent .. => true
  | .bankAccess .. => true
  | .bankReadReturn .. => true
  | .hbmReadReturn .. => true
  | .hbmPostedWrite .. => true
  | .hbmPatrol _ addr => hbmAddr addr.toNat
  | .memErrStatusWrite .. => true
  | .marchStart .. => true
  | .marchAbort _ _ found => found.all (fun f => decide (f.bp.toNat < 66))
  | .marchDone _ found => found.all (fun f => decide (f.bp.toNat < 66))
  | .bgtEnable .. => true
  | .bgtRegion .. => true
  | .sqDoorbell .. => true
  | .create _ _ entry => decide (entry.length = 64)
  | .fill _ _ entry => decide (entry.length = 64)
  | .sqAbort _ _ entry => decide (entry.length = 64)
  | .hOperandAccept .. => true
  | .dispatch .. => true
  | .transactionComplete .. => true
  | .txeTimeout .. => true
  | .txeAbort .. => true
  | .cqHeadWrite .. => true
  | .sqEnable .. => true
  | .cqEnable .. => true
  | .engineArm .. => true
  | .armComplete .. => true
  | .engineAbort .. => true
  | .xoAction .. => true
  | .xoPulseEnd .. => true
  | .recordDrain .. => true
  | .hostStreamWrite .. => true
  | .capHsHeadWrite .. => true
  | .playbackPrefetch .. => true
  | .asrEnWrite .. => true
  | .ckptReq .. => true
  | .abortCkpt .. => true
  | .scheduledCheckpoint .. => true
  | .checkpointCopyDone .. => true
  | .checkpointCommit .. => true
  | .journalConfirm .. => true
  | .signatureCompare .. => true
  | .recovery .. => true
  | .storeRewriteDone .. => true
  | .restoreDone .. => true
  | .replayEnd .. => true
  | .diagnosis .. => true
  | .diagnosisDone .. => true
  | .heartbeat .. => true
  | .heartbeatLoss .. => true
  | .takeover .. => true
  | .asrExport .. => true
  | .asrImport .. => true
  | .exportDone .. => true
  | .importDone .. => true
  | .fabricLoad .. => true
  | .fabricLoadCommit .. => true
  | .fabricRelease .. => true
  | .fabricReleaseStage .. => true
  | .afbAbort .. => true
  | .longLineContention .. => true
  | .afbLlDisWrite .. => true
  | .oscLock .. => true
  | .trimPortWrite .. => true
  | .flashProgram .. => true
  | .flashErase .. => true
  | .flashRead .. => true
  | .flashCommandDone .. => true
  | .channelPush .. => true
  | .fabricAck .. => true
  | .outHoldRelease .. => true
  | .fabricDoorbell .. => true
  | .fabricRequest .. => true
  | .fabricHbmAccess _ write addr data => hbmAddr addr.toNat && (!write || (decide (1 ≤ data.length) && decide (data.length ≤ 64)))
  | .pinFunctionSwitch .. => true
  | .pinBankVioWrite .. => true
  | .vioSettled .. => true
  | .pinDataSet .. => true
  | .pinDataClr .. => true
  | .pinInputChange .. => true
  | .debounceChange .. => true
  | .pinDsnInWrite .. => true
  | .laneEnable _ _ l _ => decide (l.toNat < 48)
  | .cdrLock _ l => decide (l.toNat < 48)
  | .laneLoss _ l _ => decide (l.toNat < 48)
  | .quadRateWrite _ _ q _ => decide (q.toNat < 12)
  | .pllLock _ q _ => decide (q.toNat < 12)
  | .hostRequest _ bar _ write len data => (bar == 0#3 || bar == 2#3 || bar == 4#3) && decide (1 ≤ (if write then data.length else len))
  | .linkDown .. => true
  | .linkUp _ speed _ => decide (1 ≤ speed.toNat) && decide (speed.toNat ≤ 5)
  | .msixUnmask .. => true
  | .hostFault .. => true
  | .ethFrameReceive _ f => decide (f.bytes.length ≤ 9212) && timeOk f.stamp
  | .ethFrameTransmit .. => true
  | .lnkMeCfgWrite .. => true
  | .ptmTimeSecLoRead .. => true
  | .setTime .. => true
  | .servoReset .. => true
  | .announce .. => true
  | .sync _ _ _ t1 _ t2 => timeOk t1 && timeOk t2
  | .followUp _ _ t1 _ => timeOk t1
  | .delayResp _ _ _ t4 _ => timeOk t4
  | .delayReq .. => true
  | .masterTimeout .. => true
  | .holdoverExpiry .. => true
  | .tpoArm .. => true
  | .disarm .. => true
  | .tpoEdge .. => true
  | .ptmTxtsIdRead .. => true
  | .ptmTcapIdRead .. => true
  | .ptmDsnWrite .. => true
  | .nocTimeout .. => true
  | .probeMatch .. => true
  | .probeClear .. => true
  | .traceEnable .. => true
  | .trcGo .. => true
  | .trcRestart .. => true
  | .tracePeriodicSync .. => true
  | .trcStwLogWrite .. => true
  | .trcStwEndWrite .. => true
  | .feedStateChange .. => true
  | .powerFail => true
  | .powerFailRelease => true
  | .thermalSample .. => true
  | .throttleSwitch .. => true
  | .sourceInvalid _ src => decide (src.toNat < 3)
  | .holdoverTimeout .. => true
  | .clkRefCfgWrite .. => true
  | .wakeTimer .. => true
  | .fallowExit .. => true
  | .por => true
  | .modRst => true
  | .halfSw .. => true
  | .watchdog .. => true
  | .kick .. => true
  | .perst .. => true
  | .hotReset .. => true
  | .flr .. => true
  | .blockSw .. => true
  | .trst => true
  | .resetRelease _ src => decide (src.toNat < 13)
  | .releaseStage .. => true
  | .mbxStatus _ k => decide (k.toNat < 3)
  | .hostEnable _ k => decide (k.toNat < 3)
  | .loadImage _ k => decide (k.toNat < 3)
  | .mailboxFallow _ k => decide (k.toNat < 3)
  | .wake _ k => decide (k.toNat < 3)
  | .halfReset _ k => decide (k.toNat < 3)
  | .readStop _ k => decide (k.toNat < 3)
  | .clearStop _ k => decide (k.toNat < 3)
  | .getMeas _ k => decide (k.toNat < 3)
  | .attest _ k => decide (k.toNat < 3)
  | .getCert _ k => decide (k.toNat < 3)
  | .extend _ k => decide (k.toNat < 3)
  | .provision _ k => decide (k.toNat < 3)
  | .certWrite _ k => decide (k.toNat < 3)
  | .takeOwnership _ k => decide (k.toNat < 3)
  | .getNonce _ k => decide (k.toNat < 3)
  | .ownerAction _ k => decide (k.toNat < 3)
  | .unlockPwd _ k => decide (k.toNat < 3)
  | .debugClose _ k => decide (k.toNat < 3)
  | .scrap _ k => decide (k.toNat < 3)
  | .fwStage _ k => decide (k.toNat < 3)
  | .getVersion .. => true
  | .getCapabilities .. => true
  | .negotiateAlgorithms .. => true
  | .getDigests .. => true
  | .getCertificate .. => true
  | .challenge _ _ nonce => decide (nonce.length = 32)
  | .getMeasurements _ _ nonce => (nonce.isEmpty || decide (nonce.length = 32))
  | .extest .. => true
  | .samplePreload .. => true
  | .idcode .. => true
  | .flashProg .. => true
  | .ctrlAccess .. => true
  | .stwHalt .. => true
  | .bypass .. => true
  | .tamperTrip .. => true
  | .lockoutExpiry .. => true
  | .nonceExpiry .. => true
  | .secLock .. => true
  | .idleBlock _ b w => decide (b.toNat < 12) && w.slices.length == 8
  | .linkChg .. => true
  | .laneSync _ l => decide (l.toNat < 48)
  | .configurationRequest .. => true
  | .sourceValid _ src => decide (src.toNat < 3)
  | .rootPllLock .. => true
  | .stopRecordDone => true
  | .imageLoadDone .. => true
  | .domainNotValid .. => true
  | .revert .. => true

end Sys2Proof
end

