-- ==== Sys2Proof/Certificates/Slice0/Obligations.lean ====
section
/-!
DEFINITION. Certificates/Slice0/Obligations.lean: the statements for the provers.

A statement about a command says that `exec` answers a next state and what that state holds. Where it names a register by
its word `Reg.…`, that is the register's offset in the half's register space (R43).
-/

namespace Sys2Proof.Claims

open Sys2Proof.Machine

/-- The command answers a next state with the queue as it was, of which `P` holds. -/
def Answers (c : Instr) (s : State) (P : State → Prop) : Prop :=
  ∃ t, exec c s = .next t ∧ t.pending = s.pending ∧ P t

/-- The command answers a next state in which the queue and the other half are as they were, and `P` holds of half `h`. -/
def OnHalf (c : Instr) (h : HalfId) (s : State) (P : Half → Prop) : Prop :=
  Answers c s (fun t => t.half (otherHalf h) = s.half (otherHalf h) ∧ P (t.half h))

/-- Of everything in a half, registers alone differ, and of these only those listed. -/
def OnlyRegs (l : List Nat) (x y : Half) : Prop :=
  y = { x with regs := y.regs } ∧ ∀ o, o ∉ l → y.reg o = x.reg o

/-- The block serves register accesses of this master (R404, R476, R556). -/
abbrev Served (s : State) (h : HalfId) (m : Master) : Prop := (s.half h).masterErr m = none

/-- No hold or stop has been asked for and no half fault waits to take effect, in either half. -/
abbrev Calm (s : State) : Prop :=
  s.h0.run.req = none ∧ s.h1.run.req = none ∧ s.h0.run.hfault = false ∧ s.h1.run.hfault = false

/-- No word of the half's stores and memories carries an error. -/
abbrev NoErrors (x : Half) : Prop := x.ar.ecc = []

/-- No run is in progress in the half, and assured operation is not active. -/
abbrev AtRest (x : Half) : Prop := x.inRun = false ∧ x.asr.active = false

end Sys2Proof.Claims

open Sys2Proof Sys2Proof.Machine Sys2Proof.Claims

/-! ## Memories and registers (R42 to R51, R235) -/

/-- A write of the steward to HBM, where no run is in progress and no armed region is met, puts its bytes there and
changes no other byte (R42, R50). -/
def Sys2Proof.Claims.MemoryWriteStoresItsBytes : Prop :=
  ∀ (h : HalfId) (addr : BitVec 40) (data : Bytes) (s : State),
    regionOf addr.toNat data.length = some .hbm → data ≠ [] → AtRest (s.half h) → NoErrors (s.half h) → Calm s →
    (s.half h).rfld Reg.stwBoot 26 2 = 0 →
    hbmMeets addr.toNat data.length ((s.half h).capRanges 4 ++ (s.half h).plyRanges 4) = false →
    OnHalf (.memoryWrite h .stw addr data) h s (fun y =>
      (∀ i (hi : i < data.length), rdByte y.mem (addr.toNat + i) = data[i]) ∧
      (∀ a, a < addr.toNat ∨ addr.toNat + data.length ≤ a → rdByte y.mem a = rdByte (s.half h).mem a) ∧
      y = { s.half h with mem := y.mem })

/-- A read of HBM by the steward, where no run is in progress, answers the bytes there and changes nothing else (R42). -/
def Sys2Proof.Claims.MemoryReadAnswersTheBytes : Prop :=
  ∀ (h : HalfId) (addr : BitVec 40) (len : Nat) (s : State),
    regionOf addr.toNat len = some .hbm → 0 < len → AtRest (s.half h) → NoErrors (s.half h) → Calm s →
    (s.half h).rfld Reg.stwBoot 26 2 = 0 →
    OnHalf (.memoryRead h .stw addr len) h s (fun y =>
      y = { s.half h with out := .answer .stw 0#2 (rdBytes (s.half h).mem addr.toNat len) :: (s.half h).out })

/-- The alias windows of a bank: with ALIAS_SEG below 8 in the steward's `MEM_WINSEL`, a write of a 4-byte word sets, or
clears, exactly the bits that its data names (R235, R236). -/
def Sys2Proof.Claims.AliasWritesSetAndClearBits : Prop :=
  ∀ (h : HalfId) (o : Nat) (data : Bytes) (s : State), o % 4 = 0 → o < 0x800000 → data.length = 4 →
    AtRest (s.half h) → NoErrors (s.half h) → Calm s → (s.half h).rfld (Reg.memWinsel 2) 7 4 < 8 →
    let a := 0x88000000 + (s.half h).rfld (Reg.memWinsel 2) 7 4 * 0x800000 + o
    let frame := fun y : Half =>
      (∀ b, b < a ∨ a + 4 ≤ b → rdByte y.mem b = rdByte (s.half h).mem b) ∧ y = { s.half h with mem := y.mem, mt := y.mt }
    OnHalf (.bitSetAliasWrite h .stw (BitVec.ofNat 40 (0x8C800000 + o)) data) h s (fun y =>
      (∀ i (hi : i < data.length), rdByte y.mem (a + i) = rdByte (s.half h).mem (a + i) ||| data[i]) ∧ frame y) ∧
    OnHalf (.bitClearAliasWrite h .stw (BitVec.ofNat 40 (0x8D000000 + o)) data) h s (fun y =>
      (∀ i (hi : i < data.length), rdByte y.mem (a + i) = rdByte (s.half h).mem (a + i) &&& ~~~data[i]) ∧ frame y)

/-- A write of `EDG_EXTGAP`, a register without a row of its own: the register takes the value while no run is in
progress, and ignores it in a run; nothing else changes (R17, R214). -/
def Sys2Proof.Claims.RegisterWriteSetsTheRegister : Prop :=
  ∀ (h : HalfId) (v : Word) (s : State),
    OnHalf (.registerWrite h .stw 0x90600004#40 (leBytes 4 v.toNat)) h s (fun y =>
      OnlyRegs [Reg.edgExtgap] (s.half h) y ∧
      y.reg Reg.edgExtgap = if (s.half h).inRun then (s.half h).reg Reg.edgExtgap else v)

/-- A register is one aligned little-endian word of 32 bits: the steward writes and reads it so, and an access of any other width
or alignment that begins at a register is answered with an unsupported request and has no effect (R15). -/
def Obligations.RegistersAreAlignedWords : Prop :=
  ∀ (h : HalfId) (m : Master) (addr : BitVec 40) (len : Nat) (data : Bytes) (v : Word) (s : State),
    let x := s.half h
    OnHalf (.memoryRead h .stw 0x90600004#40 4) h s (fun y =>
      y = { x with out := .answer .stw 0#2 (leBytes 4 (x.reg Reg.edgExtgap).toNat) :: x.out }) ∧
    (x.inRun = false → OnHalf (.registerWrite h .stw 0x90600004#40 (leBytes 4 v.toNat)) h s (fun y =>
      y.reg Reg.edgExtgap = v ∧ OnlyRegs [Reg.edgExtgap] x y)) ∧
    (regionOf addr.toNat 1 = some .ctl → m ≠ .host → m ≠ .afb →
      (data.length ≠ 4 ∨ addr.toNat % 4 ≠ 0 → OnHalf (.registerWrite h m addr data) h s (fun y =>
        y = { x with out := .answer m 1#2 [] :: x.out })) ∧
      (len ≠ 4 ∨ addr.toNat % 4 ≠ 0 → OnHalf (.memoryRead h m addr len) h s (fun y =>
        y = { x with out := .answer m 1#2 (zeros len) :: x.out }))) ∧
    (regionOf addr.toNat 1 = some .ctl → Served s h .host →
      (data.length ≠ 4 ∨ addr.toNat % 4 ≠ 0 → OnHalf (.registerWrite h .host addr data) h s (fun y =>
        y = { x with pci := { x.pci with aerUr := true } })) ∧
      (len ≠ 4 ∨ addr.toNat % 4 ≠ 0 → OnHalf (.memoryRead h .host addr len) h s (fun y =>
        y = { x with out := .completion 1#2 (zeros len) :: x.out })))

/-! ## Boolean processors, switches, the half bridge (R53 to R137) -/

/-- The value of an operand of BP `w.bp` in a step. -/
abbrev Sys2Proof.Claims.val (s : State) (x : StepAt) (w : BpWord) (c : BitVec 13) : Bool :=
  (s.half x.half).operand x.time x.first x.pos.toNat w.bp.toNat c

/-- The word of a served BP, without an error and without a reserved operand (R55, R83). -/
abbrev Sys2Proof.Claims.Plain (s : State) (x : StepAt) (w : BpWord) : Prop :=
  (s.half x.half).unserved w.bp.toNat = false ∧ NoErrors (s.half x.half) ∧ firstReserved w = none

/-- Slot `s` of the step's BP holds `v`; every other slot and everything outside the array and the slots is as it was. -/
def Sys2Proof.Claims.SlotTakes (s : State) (x : StepAt) (w : BpWord) (v : Bool) (y : Half) : Prop :=
  y.slot w.bp.toNat x.pos.toNat = v ∧
  (∀ g p, p < 4096 → (g, p) ≠ (w.bp.toNat, x.pos.toNat) → y.slot g p = (s.half x.half).slot g p) ∧
  y = { s.half x.half with mem := y.mem, ar := y.ar }

/-- EVAL, TRIG and ASSERT write the palette's function of the four operands to slot s; TRIG drives trigger line FN and ASSERT
raises assertion event FN with a result of 1, and only then (R61 to R64, R72). -/
def Sys2Proof.Claims.EvalTrigAssertWriteTheResult : Prop :=
  ∀ (x : StepAt) (w : BpWord) (s : State), Plain s x w →
    let f := palBit ((s.half x.half).palette w.bp.toNat w.fn.toNat) (val s x w w.a) (val s x w w.b) (val s x w w.c) (val s x w w.d)
    OnHalf (.eval x w) x.half s (fun y => SlotTakes s x w f y ∧
      y.ar.trig = (s.half x.half).ar.trig ∧ y.ar.asrt = (s.half x.half).ar.asrt) ∧
    OnHalf (.trig x w) x.half s (fun y => SlotTakes s x w f y ∧
      (∀ k, sget y.ar.trig k false = if f = true ∧ k = w.fn.toNat then true else sget (s.half x.half).ar.trig k false) ∧
      y.ar.asrt = (s.half x.half).ar.asrt) ∧
    OnHalf (.bpAssert x w) x.half s (fun y => SlotTakes s x w f y ∧
      (∀ k, sget y.ar.asrt k false = if f = true ∧ k = w.fn.toNat then true else sget (s.half x.half).ar.asrt k false) ∧
      y.ar.trig = (s.half x.half).ar.trig)

/-- EVALC with d = 1 writes f(a, b, c, 0) to slot s; with d = 0 it writes nothing (R61, R73). -/
def Sys2Proof.Claims.EvalcWritesOnlyWhenItsConditionHolds : Prop :=
  ∀ (x : StepAt) (w : BpWord) (s : State), Plain s x w →
    let f := palBit ((s.half x.half).palette w.bp.toNat w.fn.toNat) (val s x w w.a) (val s x w w.b) (val s x w w.c) false
    OnHalf (.evalc x w) x.half s (fun y =>
      if val s x w w.d then SlotTakes s x w f y else y = s.half x.half)

/-- NOP leaves the half as it was (R61). -/
def Sys2Proof.Claims.NopWritesNothing : Prop :=
  ∀ (x : StepAt) (bp : BitVec 16) (s : State), NoErrors (s.half x.half) →
    OnHalf (.bpNop x bp) x.half s (fun y => y = s.half x.half)

/-- The switch of a tile performs one move: the destination register takes the source's value as it stood before the step,
inverted where INV is 1 (R114 to R122). Other registers, slots and memories keep their values. -/
def Sys2Proof.Claims.SwitchInstructionMovesABit : Prop :=
  ∀ (x : StepAt) (tile : BitVec 6) (k : Nat) (mv : Move) (s : State),
    (s.half x.half).moves tile.toNat x.pos.toNat = [(k, mv, none)] → mv.v = true → mv.dst < 0x400 →
    srcReserved tile.toNat mv.src = false → s.h0.ar.sent = [] → s.h1.ar.sent = [] →
    OnHalf (.switchInstruction x tile) x.half s (fun y =>
      (sget y.ar.dst (tile.toNat * 2048 + mv.dst) DstReg.zero).val =
        ((s.half x.half).source x.time x.first x.pos.toNat tile.toNat mv.src != mv.inv) ∧
      (∀ d, d ≠ tile.toNat * 2048 + mv.dst → sget y.ar.dst d DstReg.zero = sget (s.half x.half).ar.dst d DstReg.zero) ∧
      y = { s.half x.half with ar := { (s.half x.half).ar with dst := y.ar.dst } })

/-- ECC_WRITE_BACK leaves the tile with no pending correction, and the corrected words good (R91, R117). -/
def Sys2Proof.Claims.WriteBackEndsPendingCorrections : Prop :=
  ∀ (h : HalfId) (tile : BitVec 6) (s : State),
    OnHalf (.eccWriteBack h tile) h s (fun y =>
      sget y.ar.pendBp tile.toNat 0 = 0 ∧ sget y.ar.pendSw tile.toNat 0 = 0 ∧
      (∀ a, sget (s.half h).ar.pendBp tile.toNat 0 = a + 1 → y.eccAt a = none) ∧
      (∀ a, sget (s.half h).ar.pendSw tile.toNat 0 = a + 1 → y.eccAt a = none) ∧
      y = { s.half h with ar := { (s.half h).ar with ecc := y.ar.ecc, pendBp := y.ar.pendBp, pendSw := y.ar.pendSw } })

/-- A bridge word with an uncorrectable error makes the tile's 16 BRIN registers 0 and is an exchange fault of cause
BRIDGE_ECC, with MOVE 0 and as STEP the position at which the word would first have been readable; a correctable one is counted
(R131, R134, R136). A good one changes no register. -/
def Sys2Proof.Claims.BridgeReceiveActsOnTheCheckBits : Prop :=
  ∀ (h : HalfId) (tile : BitVec 6) (s : State),
    OnHalf (.bridgeReceive h tile .double) h s (fun y =>
      (∀ k, k < 16 → sget y.ar.brin (tile.toNat * 16 + k) false = false) ∧ y.rbit Reg.xchFaultStatus 0 = true ∧
      y.ar.xchFault = true ∧ ((s.half h).rbit Reg.xchFaultStatus 0 = false → y.rfld Reg.xchFaultStatus 4 4 = 6 ∧
        y.rfld Reg.xchFaultLoc 26 6 = tile.toNat ∧ y.rfld Reg.xchFaultLoc 19 7 = 0 ∧
        ∀ w, (s.half h).ar.bridge.find? (fun w => w.tile == tile.toNat) = some w → w.pos < 4096 →
          y.rfld Reg.xchFaultLoc 0 12 = w.pos)) ∧
    OnHalf (.bridgeReceive h tile .single) h s (fun y => y.mem = (s.half h).mem ∧
      y.rfld Reg.xchEccCount 16 16 = min ((s.half h).rfld Reg.xchEccCount 16 16 + 1) 65535 ∧
      ∀ o, o ≠ Reg.xchEccCount → y.reg o = (s.half h).reg o) ∧
    OnHalf (.bridgeReceive h tile .good) h s (fun y => y.regs = (s.half h).regs ∧ y.mem = (s.half h).mem)

/-- The half bridge: UP rises in both halves once both have reached stage 7 with it down, and BRIDGE_DOWN lets it fall and
sets LOST in both (R137, R564). Nothing else changes. -/
def Sys2Proof.Claims.BridgeUpFollowsTrainingAndLoss : Prop :=
  (∀ s : State, 7 ≤ s.h0.rfld Reg.stwBoot 16 4 → 7 ≤ s.h1.rfld Reg.stwBoot 16 4 →
    s.h0.rbit Reg.xchBrgStatus 2 = false → s.h1.rbit Reg.xchBrgStatus 2 = false →
    Answers .bridgeTraining s (fun t => ∀ h, (t.half h).rbit Reg.xchBrgStatus 2 = true ∧
      OnlyRegs [Reg.xchBrgStatus] (s.half h) (t.half h))) ∧
  (∀ s : State, s.h0.rbit Reg.xchBrgStatus 2 = true → s.h1.rbit Reg.xchBrgStatus 2 = true →
    Answers .bridgeDown s (fun t => ∀ h, (t.half h).rbit Reg.xchBrgStatus 2 = false ∧
      (t.half h).rbit Reg.xchBrgStatus 1 = true ∧ OnlyRegs [Reg.xchBrgStatus] (s.half h) (t.half h)))

/-- FAULT, ECC_CORR and LOST are cleared by writing 1, with the registers that belong to them; writing 0 changes nothing
(R17, R85, R133, R134, R137). -/
def Sys2Proof.Claims.FaultStatusWritesClear : Prop :=
  ∀ (h : HalfId) (m : Master) (tile : BitVec 6) (v : Word) (s : State), Served s h m →
    OnHalf (.bpaStatusWrite h m tile v) h s (fun y =>
      (wbit v 0 = true → y.rbit (Reg.bpaStatus tile.toNat) 0 = false ∧ y.rfld (Reg.bpaStatus tile.toNat) 4 4 = 0 ∧
        y.rfld (Reg.bpaStatus tile.toNat) 16 16 = 0) ∧
      (wbit v 2 = true → y.rbit (Reg.bpaStatus tile.toNat) 2 = false ∧ y.reg (Reg.bpaEccCount tile.toNat) = 0#32) ∧
      (wbit v 0 = false → wbit v 2 = false → y = s.half h)) ∧
    OnHalf (.xchFaultStatusWrite h m v) h s (fun y =>
      (wbit v 0 = true → y.reg Reg.xchFaultStatus = 0#32 ∧ y.reg Reg.xchFaultLoc = 0#32 ∧ y.rfld Reg.xchEccCount 0 16 = 0) ∧
      (wbit v 0 = false → y = s.half h)) ∧
    OnHalf (.xchBrgStatusWrite h m v) h s (fun y =>
      (wbit v 1 = true → y.rbit Reg.xchBrgStatus 1 = false ∧ y.rfld Reg.xchEccCount 16 16 = 0 ∧
        OnlyRegs [Reg.xchBrgStatus, Reg.xchEccCount] (s.half h) y) ∧
      (wbit v 1 = false → y = s.half h))

/-- An instruction word with an uncorrectable error executes as NOP with cause INSTR_UNCORR; an instruction whose palette
entry has one writes 0 with cause PAL_UNCORR, but an EVALC with d = 0 uses no entry; a result forced so drives no line and
raises no event (R92 to R94). -/
def Obligations.UnreadableWordsAndEntriesFault : Prop :=
  ∀ (x : StepAt) (w : BpWord) (s : State),
    let b := s.half x.half
    let n := w.bp.toNat / 1024
    let cause := fun (y : Half) (c : Nat) => y.rbit (Reg.bpaStatus n) 0 = true ∧
      (b.rbit (Reg.bpaStatus n) 0 = false → y.rfld (Reg.bpaStatus n) 4 4 = c) ∧ y.ar.bpFault = true
    let quiet := fun (y : Half) => y.ar.trig = b.ar.trig ∧ y.ar.asrt = b.ar.asrt
    let bad := fun (y : Half) => y.mem = b.mem ∧ quiet y ∧ cause y 3
    let zero := fun (y : Half) => y.slot w.bp.toNat x.pos.toNat = false ∧ quiet y ∧ cause y 4 ∧
      ∀ g p, p < 4096 → (g, p) ≠ (w.bp.toNat, x.pos.toNat) → y.slot g p = b.slot g p
    b.unserved w.bp.toNat = false →
    (b.eccAt (bpWordAddr w.bp.toNat x.pos.toNat) = some true →
      OnHalf (.bpNop x w.bp) x.half s bad ∧ OnHalf (.eval x w) x.half s bad ∧ OnHalf (.evalc x w) x.half s bad ∧
      OnHalf (.trig x w) x.half s bad ∧ OnHalf (.bpAssert x w) x.half s bad) ∧
    (b.eccAt (bpWordAddr w.bp.toNat x.pos.toNat) = none → firstReserved w = none →
      b.eccAt (palAddr n (w.bp.toNat / 64 % 16) w.fn.toNat) = some true →
      OnHalf (.eval x w) x.half s zero ∧ OnHalf (.trig x w) x.half s zero ∧ OnHalf (.bpAssert x w) x.half s zero ∧
      (val s x w w.d = true → OnHalf (.evalc x w) x.half s zero) ∧
      (val s x w w.d = false → OnHalf (.evalc x w) x.half s (fun y => y = b)))

/-! ## Tilmoyr bundles, blocks and packets (R138 to R165, R275, R276) -/

/-- A bundle trains: EN = 1 leads from OFF to LOCK with the configuration written, EN = 0 to OFF; LOCK leads to ALIGN with
its PLLs locked, ALIGN after 16 good blocks through PARAM to MEASURE, PACKET or FAILED, MEASURE after 64 round trips to
ACTIVE at the frozen latency (R149, R150, R153, R165, R460). The model's choices: what BUNDLE_LOCK takes over (log 85), an E
outside its range (log 86), whose TARGET counts (log 90). -/
def Sys2Proof.Claims.BundleTrainingPassesItsStates : Prop :=
  (∀ (h : HalfId) (m : Master) (b : BitVec 4) (v : Word) (s : State), Served s h m → b.toNat < 12 → b.toNat % 2 = 0 →
    (wbit v 0 = true → (s.half h).rbit (Reg.lnkTmBcfg b.toNat) 0 = false →
      OnHalf (.bundleEnable h m b v) h s (fun y => (y.bun b.toNat).st = .lock ∧ (y.bun b.toNat).cfg = v &&& 0xFFFFF801#32 ∧
        y.reg (Reg.lnkTmBcfg b.toNat) = v &&& 0xFFFFF801#32 ∧ y.reg (Reg.lnkTmBerr b.toNat) = 0#32 ∧ y.mem = (s.half h).mem)) ∧
    (wbit v 0 = false → (s.half h).rbit (Reg.lnkTmBcfg b.toNat) 0 = true →
      OnHalf (.bundleEnable h m b v) h s (fun y => (y.bun b.toNat).st = .off ∧ y.mem = (s.half h).mem))) ∧
  (∀ (h : HalfId) (b : BitVec 4) (s : State),
    let u := (s.half h).bun b.toNat
    (u.st = .lock → (s.half h).bundlePll b.toNat u = true →
      ∀ past, OnHalf (.bundleLock h b past) h s (fun y => (y.bun b.toNat).st = .align ∧ (y.bun b.toNat).good = 0 ∧
        y = (s.half h).setBun b.toNat { u with st := .align, good := 0, scrRx := (y.bun b.toNat).scrRx })) ∧
    (u.st = .align → 16 ≤ u.good →
      OnHalf (.bundleAlign h b) h s (fun y => y.mem = (s.half h).mem ∧ (y.bun b.toNat).st =
        if u.peerL8 = lanes8 b.toNat u.cfg ∧ u.peerE = u.e then
          (if u.peerRef = true ∧ (s.half h).refLock = true then .measure else .packet)
        else .failed)) ∧
    (∀ f, u.st = .measure → 64 ≤ u.trips → (s.half h).proposes u = true →
      frozenF (fld u.cfg 22 10) (frozenM u.dOwn u.dPeer (u.span b.toNat)) = some f →
      OnHalf (.bundleMeasureDone h b) h s (fun y => (y.bun b.toNat).st = .active ∧ (y.bun b.toNat).frozen = f ∧
        y.mem = (s.half h).mem)))

/-- A bundle falls: a time-out in training, and the loss of a lane, lead to DOWN with an empty replay buffer and the lanes
at fault noted; with AUTO_RETRAIN the timer leads back to LOCK, degraded where DEGRADE_OK lets an 8-lane bundle go on with four
lanes (R147, R149, R161, R162). -/
def Sys2Proof.Claims.BundleLossLeadsToDownAndBack : Prop :=
  ∀ (h : HalfId) (b : BitVec 4) (lanes : BitVec 8) (s : State),
    let u := (s.half h).bun b.toNat
    (u.training = true → OnHalf (.bundleTimeout h b) h s (fun y =>
      (y.bun b.toNat).st = .down ∧ (y.bun b.toNat).replay = [] ∧ (y.bun b.toNat).laneFlt = 0#8 ∧ y.mem = (s.half h).mem)) ∧
    (u.training = true ∨ u.live = true → OnHalf (.bundleLaneLoss h b lanes) h s (fun y =>
      (y.bun b.toNat).st = .down ∧ (y.bun b.toNat).replay = [] ∧ (y.bun b.toNat).laneFlt = lanes ∧ y.mem = (s.half h).mem)) ∧
    (u.st = .down → wbit u.cfg 13 = true → OnHalf (.bundleDownTimer h b) h s (fun y =>
      (y.bun b.toNat).st = .lock ∧ (y.bun b.toNat).cfg = u.cfg ∧
      ((y.bun b.toNat).degraded = true ↔ u.degraded = true ∨ (lanes8 b.toNat u.cfg = true ∧ wbit u.cfg 14 = true ∧
        (u.laneFlt &&& 0x0F#8 = 0#8 ↔ ¬ u.laneFlt &&& 0xF0#8 = 0#8))) ∧
      y = { s.half h with bundle := y.bundle }))

/-- No lane of the bundle has shown 16 invalid headers in a row once it has taken a block (R161). -/
abbrev Sys2Proof.Claims.LanesHold (u : Bundle) (b : Nat) (w : WireBlock) : Prop :=
  ((u.takeSlices b (wireSlices w)).2).deadLanes b = 0#8

/-- A bad TRAIN block ends the run of good ones and is counted; a good one counts and tells the peer's MODULE_ID and E
(R142, R151, R165). -/
def Sys2Proof.Claims.TrainBlocksAreCheckedAndTaken : Prop :=
  ∀ (h : HalfId) (b : BitVec 4) (w : WireBlock) (s : State),
    let u := (s.half h).bun b.toNat
    let r := (u.readTrain b.toNat w).2
    u.training = true → u.st ≠ .lock → LanesHold u b.toNat w →
    ((u.readTrain b.toNat w).1 = false → OnHalf (.trainBlock h b w) h s (fun y =>
      (y.bun b.toNat).good = 0 ∧ (y.bun b.toNat).st = u.st ∧
      y.rfld (Reg.lnkTmBerr b.toNat) 16 16 = min ((s.half h).rfld (Reg.lnkTmBerr b.toNat) 16 16 + 1) 65535)) ∧
    ((u.readTrain b.toNat w).1 = true → u.st ≠ .measure → OnHalf (.trainBlock h b w) h s (fun y =>
      (y.bun b.toNat).good = u.good + 1 ∧ (y.bun b.toNat).peer = BitVec.ofNat 32 (recField r 0 32) ∧
      (y.bun b.toNat).peerE = recField r 39 7 ∧ y = { s.half h with bundle := y.bundle }))

/-- Packets (R145, R146, R275, R276): the DATA packet expected is taken and acknowledged with the next PSEQ, another is only
acknowledged; an ACK empties the replay buffer up to ACKSEQ; a NAK is counted, and the packets from there on are sent again before
any other, from the beginning of a packet area; a CREDIT packet sets the total granted; a credit refresh tells the peer the
total granted on every channel bound to the bundle. -/
def Sys2Proof.Claims.PacketsAreTakenInOrderAndAcknowledged : Prop :=
  ∀ (h : HalfId) (b : BitVec 4) (s : State),
    let u := (s.half h).bun b.toNat
    let at_ := fun (t : State) => (t.half h).bun b.toNat
    u.live = true →
    (∀ (pseq : BitVec 16) (payload : Bytes), u.resync = false → pseq.toNat = u.pseqRx →
      Answers (.dataPacket h b 0#8 pseq payload) s (fun t =>
        (t.half h).txe.stwRx = (s.half h).txe.stwRx ++ [payload] ∧ (at_ t).pseqRx = (u.pseqRx + 1) % 65536 ∧
        (at_ t).txq = u.txq ++ [⟨2, 0, 0, []⟩] ∧ (t.half h).mem = (s.half h).mem)) ∧
    (∀ (chan : BitVec 8) (pseq : BitVec 16) (payload : Bytes), u.resync = false → pseq.toNat ≠ u.pseqRx →
      Answers (.dataPacket h b chan pseq payload) s (fun t =>
        at_ t = { u with txq := u.txq ++ [⟨2, chan.toNat, 0, []⟩] } ∧ (t.half h).txe.stwRx = (s.half h).txe.stwRx ∧
        (t.half h).mem = (s.half h).mem)) ∧
    (∀ ack : BitVec 16, Answers (.ackPacket h b ack) s (fun t =>
      at_ t = { u with replay := u.replay.filter (fun p => !pseqBefore p.pseq ack.toNat) } ∧
      (t.half h).mem = (s.half h).mem)) ∧
    (∀ ack : BitVec 16, Answers (.nakPacket h b ack) s (fun t =>
      let left := u.replay.filter (fun p => !pseqBefore p.pseq ack.toNat)
      (t.half h).rfld (Reg.lnkTmBerr b.toNat) 0 16 = min ((s.half h).rfld (Reg.lnkTmBerr b.toNat) 0 16 + 1) 65535 ∧
      (at_ t).replay = left ∧ (at_ t).txPart = [] ∧
      (at_ t).txq = left.map (fun p => ⟨1, p.chan, p.pseq, p.payload⟩) ++ u.txq.filter (fun p => p.typ != 1) ∧
      (t.half h).mem = (s.half h).mem)) ∧
    (∀ (chan : BitVec 8) (granted : Word), Answers (.creditPacket h b chan granted) s (fun t =>
      sget (at_ t).granted chan.toNat 0 = granted.toNat ∧ (at_ t) = { u with granted := (at_ t).granted } ∧
      (t.half h).mem = (s.half h).mem)) ∧
    OnHalf (.creditRefresh h b) h s (fun y => y = { s.half h with bundle := y.bundle } ∧
      ∀ c, 1 ≤ c → c ≤ 255 → wbit ((s.half h).reg (Reg.txeLch (c - 1))) 31 = true →
        fld ((s.half h).reg (Reg.txeLch (c - 1))) 16 4 = b.toNat →
        ⟨4, c, 0, leBytes 4 (sget (s.half h).txe.lchGr c 0)⟩ ∈ (y.bun b.toNat).txq)

/-- A bad block: its packet bytes are discarded until PSTART = 1, it is counted, and in a RUN block it asks the linked run to
halt (R144, R146, R160, R165). A good RUN block gives its window of exchange bits, readable from latency F − 2 on, modulo 2^48
(R148, R156). The model's choices: a RUN block is taken whenever it arrives (log 91). -/
def Sys2Proof.Claims.BlocksCarryWindowsAndBadOnesStopThem : Prop :=
  ∀ (h : HalfId) (b : BitVec 4) (q : BitVec 48) (w : WireBlock) (s : State),
    let u := (s.half h).bun b.toNat
    let blk := u.read b.toNat w
    let count := min ((s.half h).rfld (Reg.lnkTmBerr b.toNat) 16 16 + 1) 65535
    LanesHold u b.toNat w →
    (u.st = .active → q.toNat % u.span b.toNat = 0 → blk.bad = true → Answers (.runBlock h b q w) s (fun t =>
      (t.half h).run.linkHalt = true ∧ ((t.half h).bun b.toNat).resync = true ∧ (t.half h).mem = (s.half h).mem)) ∧
    (u.st = .active → q.toNat % u.span b.toNat = 0 → blk.bad = false → blk.kind = 2 → u.seqBroken blk = false →
      Answers (.runBlock h b q w) s (fun t =>
        (⟨b.toNat, u.lo b.toNat, (q.toNat + u.frozen + (2 ^ 48 - 2)) % 2 ^ 48, u.span b.toNat, u.effE,
          blk.body.toNat % 2 ^ (u.span b.toNat * u.effE)⟩ : LinkWindow) ∈ (t.half h).ar.lin ∧ (t.half h).mem = (s.half h).mem)) ∧
    (u.live = true → blk.bad = true → Answers (.idleBlock h b w) s (fun t =>
      ((t.half h).bun b.toNat).resync = true ∧ (t.half h).rfld (Reg.lnkTmBerr b.toNat) 16 16 = count ∧
      (t.half h).mem = (s.half h).mem))

/-- A block that one end of a bundle sends is the block that the other end reads, whatever its CTL and its body, while the
scramblers of the two ends stand at the same bits (R141, R142). -/
def Sys2Proof.Claims.TheBlockSentIsTheBlockRead : Prop :=
  ∀ (u v : Bundle) (b : Nat) (ctl : BitVec 16) (body : BitVec 512),
    (∀ l, sget u.scrTx l 0 = sget v.scrRx l 0) → (∀ j, u.laneOf b j = v.laneOf b j) →
    let sent := u.putSlices b (((slicesOf (blockBits ctl.toNat body.toNat)).zipIdx).map (fun p => (p.2, p.1)))
    let w : WireBlock := ⟨sent.1.map (fun p => (1#2, p.2))⟩
    v.read b w = ⟨ctl, body, false⟩ ∧ ∀ l, sget sent.2.scrTx l 0 = sget ((v.takeSlices b (wireSlices w)).2).scrRx l 0

/-- A linked start (R155, R158): a START that agrees in digest and F and is not late sets the LSC at which the run begins,
in a member that does not lead; an ABORT before it takes that back; at that LSC the wait ends; a halt in any member's
samples, or a sample that is missing, faults the run. The model's choices: which START and ABORT a member heeds (log 88). -/
def Obligations.LinkedStartsAndHalts : Prop :=
  (∀ (h : HalfId) (b : BitVec 4) (w : WireBlock) (s : State),
    let u := (s.half h).bun b.toNat
    let g := s.half (s.govern h)
    let blk := u.read b.toNat w
    let start := natField blk.body.toNat 0 48
    let left := lscDist start (s.half h).lscNat
    LanesHold u b.toNat w → u.st = .active → blk.bad = false → 0 < left → left < 2 ^ 47 →
    u.lastCtl ≠ some (blk.kind, start) →
    (blk.kind = 4 → wbit (s.groupCfg h) 1 = false →
      natField blk.body.toNat 48 32 = (g.reg Reg.lnkTmDigest).toNat → natField blk.body.toNat 80 10 = u.frozen →
      (∀ k c, c < 12 → bmaskHas (s.groupCfg h) (halfNum (s.half k).self) c = true → ((s.half k).bun c).frozen = u.frozen) →
      Answers (.startBlock h b w) s (fun t => (t.half (s.govern h)).run.linkStart = some start ∧
        (t.half (s.govern h)).mem = g.mem ∧ (t.half (s.govern h)).out = g.out)) ∧
    (blk.kind = 5 → g.run.linkStart = some start → g.run.aborted ≠ some start →
      Answers (.abortBlock h b w) s (fun t => (t.half (s.govern h)).run.linkStart = none ∧
        (t.half (s.govern h)).mem = g.mem))) ∧
  (∀ (h : HalfId) (q : Nat) (st : RunState) (s : State), q < 2 ^ 48 → (s.half (s.govern h)).run.linkStart = some q →
    (s.half (s.govern h)).run.linkWait = some st → lscDist q (s.half (s.govern h)).lscNat < 2 ^ 47 →
    Answers (.linkedStart h) s (fun t => (t.half (s.govern h)).run.linkWait = none ∧
      (t.half (s.govern h)).run.linkStart = none ∧ (t.half (s.govern h)).run.lsc = BitVec.ofNat 48 q ∧
      (t.half (s.govern h)).run.steps = (s.half (s.govern h)).run.steps + lscDist q (s.half (s.govern h)).lscNat)) ∧
  (∀ (h : HalfId) (s : State), Calm s → (s.half h).run.linked = true → (s.half h).run.state = .running →
    (s.half h).run.stall.isSome = true → (∃ o ∈ (s.half h).peerSamples, o = none ∨ ∃ f, o = some f ∧ f.halt = true) →
    Answers (.linkedStallEval h) s (fun t => (t.half h).run.state = .faulted ∧ (t.half h).mem = (s.half h).mem))

/-! ## The sequencer: words (R195, R196, R602) -/

/-- The example of R200 and the example of R195, and reserved and unused fields: each word decodes to its instruction. -/
def Obligations.SequencerWordsDecodeAsThePrograms : Prop :=
  ∀ h : HalfId,
    seqDecode h 0x000F0056#32 = some (.uppi h 1#5 0x000F#16) ∧
    seqDecode h 0x42400852#32 = some (.ori h 1#5 1#5 0x4240#16) ∧
    seqDecode h 0x000008B1#32 = some (.runc h 2#5 1#5) ∧
    seqDecode h 0x0003103F#32 = some (.sig h 2#5 3#16) ∧
    seqDecode h 0x0000001E#32 = some (.halt h) ∧
    seqDecode h 0x00000000#32 = some (.nop h) ∧
    seqDecode h 0x0000000C#32 = none ∧
    seqDecode h 0xFFFFFFDE#32 = some (.halt h)

/-- Decoding the word of an instruction gives the instruction back, with every operand at every value that its field admits
(R195, R196, R602). -/
def Obligations.DecodingUndoesEncoding : Prop :=
  ∀ (i : Instr) (w : Word), WellFormed i = true → seqEncode i = some w → ∃ h, seqDecode h w = some i

/-- A word decodes to no instruction exactly when its OP is one that R196 reserves: then the fetch of that word is the fault
RSVD_OPC (R215). -/
def Obligations.ReservedOpcodesAreTheOnesNotDecoded : Prop :=
  ∀ (h : HalfId) (w : Word), seqDecode h w = none ↔ opReserved (w.toNat % 64) = true

/-! ## The sequencer: registers and arithmetic (R192, R196, R200) -/

/-- The trace of instruction words is off, so that an instruction leaves no SEQ_INS packet (R533). -/
abbrev Sys2Proof.Claims.NoInsTrace (s : State) (h : HalfId) : Prop := (s.half h).rbit Reg.trcCtrl 0 = false

/-- Register `wd` holds `v`, unless it is w0, which reads 0; every other register and the memory are as they were; PC has gone
on to the next word. -/
def Sys2Proof.Claims.Wrote (s : State) (h : HalfId) (wd : BitVec 5) (v : DWord) (y : Half) : Prop :=
  y.w wd = (if wd = 0#5 then 0#64 else v) ∧ (∀ r, r ≠ wd → y.w r = (s.half h).w r) ∧ y.seq.pc = (s.half h).seq.pc + 1#14 ∧
  y.mem = (s.half h).mem ∧ y.seq.progWords = (s.half h).seq.progWords

/-- The results of the register instructions; a write to w0 is ignored (R192, R196). -/
def Sys2Proof.Claims.RegisterArithmeticWritesItsResult : Prop :=
  ∀ (h : HalfId) (wd wa wb : BitVec 5) (s : State),
    let a := (s.half h).w wa
    let b := (s.half h).w wb
    let does := fun (i : Instr) (v : DWord) => s.canExec h i = true → OnHalf i h s (Wrote s h wd v)
    does (.add h wd wa wb) (a + b) ∧ does (.sub h wd wa wb) (a - b) ∧ does (.and h wd wa wb) (a &&& b) ∧
    does (.or h wd wa wb) (a ||| b) ∧ does (.xor h wd wa wb) (a ^^^ b) ∧
    does (.shl h wd wa wb) (BitVec.ofNat 64 (a.toNat * 2 ^ (b.toNat % 64))) ∧
    does (.shr h wd wa wb) (BitVec.ofNat 64 (a.toNat / 2 ^ (b.toNat % 64))) ∧
    does (.sra h wd wa wb) (BitVec.ofInt 64 (a.toInt / 2 ^ (b.toNat % 64))) ∧
    does (.clt h wd wa wb) (if a.toInt < b.toInt then 1#64 else 0#64) ∧
    does (.cltu h wd wa wb) (if a.toNat < b.toNat then 1#64 else 0#64) ∧
    does (.mul h wd wa wb) (BitVec.ofNat 64 (a.toNat * b.toNat))

/-- The results of the immediate instructions: ADDI extends the sign, ANDI, ORI and XORI extend with zeros, SHLI and SHRI use
IMM[5:0], UPPI multiplies by 65,536 (R192, R196). -/
def Sys2Proof.Claims.ImmediateArithmeticWritesItsResult : Prop :=
  ∀ (h : HalfId) (wd wa : BitVec 5) (imm : BitVec 16) (s : State),
    let a := (s.half h).w wa
    let does := fun (i : Instr) (v : DWord) => s.canExec h i = true → OnHalf i h s (Wrote s h wd v)
    does (.addi h wd wa imm) (BitVec.ofInt 64 (a.toInt + imm.toInt)) ∧
    does (.andi h wd wa imm) (a &&& BitVec.ofNat 64 imm.toNat) ∧ does (.ori h wd wa imm) (a ||| BitVec.ofNat 64 imm.toNat) ∧
    does (.xori h wd wa imm) (a ^^^ BitVec.ofNat 64 imm.toNat) ∧
    does (.shli h wd wa imm) (BitVec.ofNat 64 (a.toNat * 2 ^ (imm.toNat % 64))) ∧
    does (.shri h wd wa imm) (BitVec.ofNat 64 (a.toNat / 2 ^ (imm.toNat % 64))) ∧
    does (.uppi h wd imm) (BitVec.ofNat 64 (imm.toNat * 65536))

/-- RDT reads the time source that IMM[3:0] names; sources 7 to 15 read 0 (R200). NOP changes nothing but PC; HALT leaves the
sequencer HALTED with PC at the next word (R196). -/
def Sys2Proof.Claims.TimeSourcesNopAndHalt : Prop :=
  ∀ (h : HalfId) (wd : BitVec 5) (imm : BitVec 16) (s : State),
    let x := s.half h
    let does := fun (n : Nat) (v : DWord) => imm.toNat = n → s.canExec h (.rdt h wd imm) = true →
      OnHalf (.rdt h wd imm) h s (Wrote s h wd v)
    does 0 x.run.cyc ∧ does 1 x.run.vt ∧ does 2 (x.run.lsc.setWidth 64) ∧
    does 3 (match x.run.decided with
      | some d => d.vt
      | none => x.run.vt) ∧
    does 4 (BitVec.ofNat 64 x.ctl) ∧ does 5 (x.phc.sec.setWidth 64) ∧
    does 6 (BitVec.ofNat 64 (x.phc.ns.toNat * 65536 + x.phc.frac.toNat)) ∧ (∀ n, 7 ≤ n → n < 16 → does n 0#64) ∧
    (s.canExec h (.nop h) = true → OnHalf (.nop h) h s (fun y => (∀ r, y.w r = x.w r) ∧ y.seq.pc = x.seq.pc + 1#14 ∧
      y.mem = x.mem)) ∧
    (s.canExec h (.halt h) = true → NoInsTrace s h → OnHalf (.halt h) h s (fun y =>
      y = { x with seq := { x.seq with exec := .halted, pc := x.seq.pc + 1#14 } }))

/-! ## The sequencer: memory, registers and control flow (R196, R215) -/

/-- LD and ST move 8 bytes between a register and SP0; a misaligned address and a store into the program area are faults of
cause ALIGN and PROG_WRITE, which leave registers and memory as they were and the sequencer in FAULT at the instruction
(R196, R215). -/
def Sys2Proof.Claims.LoadsAndStoresUseScratchpadZero : Prop :=
  ∀ (h : HalfId) (wd wa : BitVec 5) (imm : BitVec 16) (s : State),
    let x := s.half h
    let off := ((s.half h).w wa + imm.signExtend 64).toNat % 2 ^ 20
    let faults := fun (i : Instr) (cause : Nat) => OnHalf i h s (fun y => y.seq.exec = .fault ∧ y.seq.pc = x.seq.pc ∧
      y.seq.w = x.seq.w ∧ y.mem = x.mem ∧ y.rfld Reg.seqFault 4 4 = cause ∧ y.rfld Reg.seqFault 8 14 = x.seq.pc.toNat ∧
      y.rbit Reg.seqFault 0 = true)
    NoErrors x → Calm s → NoInsTrace s h →
    (s.canExec h (.ld h wd wa imm) = true →
      (off % 8 = 0 → OnHalf (.ld h wd wa imm) h s (Wrote s h wd (BitVec.ofNat 64 (leNat (rdBytes x.mem (spAddr 0 + off) 8))))) ∧
      (off % 8 ≠ 0 → faults (.ld h wd wa imm) 2)) ∧
    (s.canExec h (.st h wd wa imm) = true →
      (off % 8 = 0 → 0x10000 ≤ off → OnHalf (.st h wd wa imm) h s (fun y =>
        leNat (rdBytes y.mem (spAddr 0 + off) 8) = (x.w wd).toNat ∧
        (∀ a, a < spAddr 0 + off ∨ spAddr 0 + off + 8 ≤ a → rdByte y.mem a = rdByte x.mem a) ∧ y.seq.w = x.seq.w ∧
        y.seq.pc = x.seq.pc + 1#14)) ∧
      (off % 8 = 0 → off < 0x10000 → faults (.st h wd wa imm) 5) ∧
      (off % 8 ≠ 0 → faults (.st h wd wa imm) 2))

/-- RDC and WRC reach the half's registers: here `SEQ_TIMER` and `EDG_EXTGAP`; an address outside the map is a fault of cause
CTRL_ERR (R196, R215). -/
def Sys2Proof.Claims.RegisterAccessesOfTheSequencer : Prop :=
  ∀ (h : HalfId) (wd wa : BitVec 5) (imm : BitVec 16) (s : State),
    let x := s.half h
    let addr := ((s.half h).w wa + imm.signExtend 64).toNat % 2 ^ 40
    NoInsTrace s h →
    (s.canExec h (.rdc h wd wa imm) = true →
      (addr = 0x90500034 → OnHalf (.rdc h wd wa imm) h s (Wrote s h wd ((x.reg Reg.seqTimer).setWidth 64))) ∧
      (0x1C00000000 ≤ addr → OnHalf (.rdc h wd wa imm) h s (fun y => y.seq.exec = .fault ∧ y.seq.w = x.seq.w ∧
        y.rfld Reg.seqFault 4 4 = 4 ∧ y.mem = x.mem))) ∧
    (s.canExec h (.wrc h wd wa imm) = true →
      (addr = 0x90600004 → x.inRun = false → OnHalf (.wrc h wd wa imm) h s (fun y =>
        y.reg Reg.edgExtgap = (x.w wd).setWidth 32 ∧ y.seq.pc = x.seq.pc + 1#14 ∧ y.seq.w = x.seq.w ∧ y.mem = x.mem)) ∧
      (0x1C00000000 ≤ addr → OnHalf (.wrc h wd wa imm) h s (fun y => y.seq.exec = .fault ∧ y.seq.w = x.seq.w ∧
        y.rfld Reg.seqFault 4 4 = 4 ∧ y.mem = x.mem)))

/-- Branches: where the condition holds of wd and wa, PC takes PC + 1 + sext(IMM); otherwise PC + 1. No register changes
(R196). -/
def Sys2Proof.Claims.BranchesMoveThePc : Prop :=
  ∀ (h : HalfId) (wd wa : BitVec 5) (imm : BitVec 16) (s : State),
    let x := s.half h
    let a := x.w wd
    let b := x.w wa
    let does := fun (i : Instr) (p : Prop) => s.canExec h i = true →
      (p → OnHalf i h s (fun y => y.seq.pc = BitVec.ofInt 14 (x.seq.pc.toNat + 1 + imm.toInt) ∧ y.seq.w = x.seq.w ∧ y.mem = x.mem)) ∧
      (¬ p → OnHalf i h s (fun y => y.seq.pc = x.seq.pc + 1#14 ∧ y.seq.w = x.seq.w ∧ y.mem = x.mem))
    does (.beq h wd wa imm) (a = b) ∧ does (.bne h wd wa imm) (a ≠ b) ∧ does (.blt h wd wa imm) (a.toInt < b.toInt) ∧
    does (.bge h wd wa imm) (b.toInt ≤ a.toInt) ∧ does (.bltu h wd wa imm) (a.toNat < b.toNat) ∧
    does (.bgeu h wd wa imm) (b.toNat ≤ a.toNat)

/-- Jumps: JMP and CALL add OFF to the next PC, CALL keeps the return PC in wd, JMPR takes wa[13:0] (R196). -/
def Sys2Proof.Claims.JumpsMoveThePc : Prop :=
  ∀ (h : HalfId) (wd wa : BitVec 5) (off : BitVec 21) (s : State),
    let x := s.half h
    (s.canExec h (.jmp h off) = true → OnHalf (.jmp h off) h s (fun y =>
      y.seq.pc = BitVec.ofInt 14 (x.seq.pc.toNat + 1 + off.toInt) ∧ y.seq.w = x.seq.w ∧ y.mem = x.mem)) ∧
    (s.canExec h (.call h wd off) = true → OnHalf (.call h wd off) h s (fun y =>
      y.seq.pc = BitVec.ofInt 14 (x.seq.pc.toNat + 1 + off.toInt) ∧
      y.w wd = (if wd = 0#5 then 0#64 else BitVec.ofNat 64 ((x.seq.pc.toNat + 1) % 2 ^ 14)) ∧
      (∀ r, r ≠ wd → y.w r = x.w r) ∧ y.mem = x.mem)) ∧
    (s.canExec h (.jmpr h wa) = true → OnHalf (.jmpr h wa) h s (fun y =>
      y.seq.pc = (x.w wa).setWidth 14 ∧ y.seq.w = x.seq.w ∧ y.mem = x.mem))

/-- An instruction that the sequencer does not execute changes nothing: the sequencer is HALTED, waits, is in FAULT, is not
the one that runs, or the word at PC is another instruction's (R193, R194). The model's choices: rows act only as the word
at the PC (log 26), a command that cannot arise changes nothing (log 7). -/
def Sys2Proof.Claims.InstructionsNotAtThePcDoNothing : Prop :=
  ∀ (h : HalfId) (i : Instr) (w : Word) (s : State), seqDecode h w = some i → s.canExec h i = false → exec i s = .next s

/-! ## The sequencer: run control and events (R189 to R199, R212) -/

/-- The sequencer's next state after an instruction that completes with a status word. -/
def Sys2Proof.Claims.Status (s : State) (h : HalfId) (wd : BitVec 5) (code : Nat) (t : State) : Prop :=
  (t.half h).w wd = (if wd = 0#5 then 0#64 else BitVec.ofNat 64 code) ∧ (t.half h).seq.pc = (s.half h).seq.pc + 1#14 ∧
  (t.half h).mem = (s.half h).mem

/-- GO releases a held run and answers OK; with no image loaded it answers REFUSED_UNLOADED and starts nothing. RUNC with wa
= 0 answers OK without motion; RUNC and RUNT of a held run release it and wait (R187, R189, R197, R199). The model's
choices: answers of RUNC and RUNT without motion (log 27), codes of refusals that no rule lists (log 30). -/
def Sys2Proof.Claims.GoRuncRuntReleaseAHeldRun : Prop :=
  ∀ (h : HalfId) (wd wa : BitVec 5) (s : State), Calm s → s.paired h = false →
    let x := s.half h
    (s.canExec h (.go h wd) = true →
      (x.run.state = .held → OnHalf (.go h wd) h s (fun y => y.run.state = .running ∧
        y.w wd = (if wd = 0#5 then 0#64 else 0#64) ∧ y.seq.pc = x.seq.pc + 1#14 ∧ y.run.cyc = x.run.cyc ∧ y.mem = x.mem)) ∧
      (x.run.state = .unloaded → Answers (.go h wd) s (Status s h wd 2))) ∧
    (s.canExec h (.runc h wd wa) = true →
      (x.w wa = 0#64 → Answers (.runc h wd wa) s (fun t => Status s h wd 0 t ∧ (t.half h).run.state = x.run.state)) ∧
      (x.w wa ≠ 0#64 → x.run.state = .held → x.run.stall.isSome = true → OnHalf (.runc h wd wa) h s (fun y =>
        y.run.state = .running ∧ y.run.holdCyc = some (x.run.cyc + x.w wa) ∧ y.seq.exec = .wait ∧ y.seq.pc = x.seq.pc))) ∧
    (s.canExec h (.runt h wd wa) = true → x.run.state = .held →
      (s.ticksUpTo h (x.w wa) = true → OnHalf (.runt h wd wa) h s (fun y => y.run.state = .running ∧
        y.run.holdVt = some (x.w wa) ∧ y.seq.exec = .wait)) ∧
      (s.ticksUpTo h (x.w wa) = false → Answers (.runt h wd wa) s (fun t => Status s h wd 0 t ∧
        (t.half h).run.state = .held)))

/-- HOLD asks a run for a hold of code HELD_REQUEST, STOP for a stop, and both wait; STOP in HELD stops the run at once.
Where no run is in progress both answer REFUSED_STATE (R190, R191, R197, R199). The model's choices: a HOLD in HELD, and the
codes with which HOLD and STOP complete (logs 27, 28, 81). -/
def Sys2Proof.Claims.HoldAndStopAskTheRun : Prop :=
  ∀ (h : HalfId) (wd : BitVec 5) (s : State), Calm s → s.paired h = false →
    let x := s.half h
    (s.canExec h (.hold h wd) = true →
      (x.run.state = .running → OnHalf (.hold h wd) h s (fun y => y.run.state = .running ∧ y.seq.exec = .wait ∧
        (y.run.req.map (fun q => (q.code, q.stop))) = some (8, false))) ∧
      (x.run.state = .ready → Answers (.hold h wd) s (Status s h wd 1))) ∧
    (s.canExec h (.stop h wd) = true →
      (x.run.state = .running → OnHalf (.stop h wd) h s (fun y => y.run.state = .running ∧ y.seq.exec = .wait ∧
        (y.run.req.map (fun q => q.stop)) = some true)) ∧
      (x.run.state = .held → Answers (.stop h wd) s (fun t => (t.half h).run.state = .stopped ∧
        (t.half h).w wd = (if wd = 0#5 then 0#64 else 9#64))) ∧
      (x.run.state = .ready → Answers (.stop h wd) s (Status s h wd 1)))

/-- DOMEN sets EN of the slot that holds its domain: only in HELD, else REFUSED_STATE; a number that no slot holds is
REFUSED_DESC; writing the value EN holds changes nothing; a domain disabled loses its pending edge and its queued external
entries (R197). The model's choices: the decision is taken anew at the same step (log 27). -/
def Sys2Proof.Claims.DomenSwitchesADomainInHeld : Prop :=
  ∀ (h : HalfId) (wd : BitVec 5) (imm : BitVec 16) (s : State), Calm s → s.canExec h (.domen h wd imm) = true →
    (s.half h).run.mode = .split →
    let x := s.half h
    let d := imm.toNat % 256
    (x.run.state ≠ .held → Answers (.domen h wd imm) s (fun t => Status s h wd 1 t ∧ (t.half h).run.pend = x.run.pend)) ∧
    (x.run.state = .held → 128 ≤ d → Answers (.domen h wd imm) s (fun t => Status s h wd 6 t ∧ (t.half h).run.pend = x.run.pend)) ∧
    (x.run.state = .held → d < 128 → (x.desc d).en = imm.getLsbD 8 →
      Answers (.domen h wd imm) s (fun t => Status s h wd 0 t ∧ (t.half h).run.pend = x.run.pend)) ∧
    (x.run.state = .held → d < 128 → (x.desc d).en = true → imm.getLsbD 8 = false →
      Answers (.domen h wd imm) s (fun t => Status s h wd 0 t ∧ ((t.half h).desc d).en = false ∧
        sget (t.half h).run.pend d none = none ∧ ∀ e ∈ (t.half h).run.ext, e.due.dom ≠ d))

/-- EVEN, EVDIS, EVCLR and EVACT act on the bits of one event; reserved events have no bits (R198, R212). -/
def Sys2Proof.Claims.EventInstructionsActOnTheirBits : Prop :=
  ∀ (h : HalfId) (imm : BitVec 16) (s : State),
    let x := s.half h
    let n := imm.toNat % 512
    (s.canExec h (.even h imm) = true → OnHalf (.even h imm) h s (fun y => y.evtEn n = decide (n < 281 ∨ x.evtEn n = true) ∧
      (∀ k, k < 512 → k ≠ n → y.evtEn k = x.evtEn k) ∧ y.seq.w = x.seq.w ∧ y.mem = x.mem)) ∧
    (s.canExec h (.evdis h imm) = true → OnHalf (.evdis h imm) h s (fun y => (n < 281 → y.evtEn n = false) ∧
      (∀ k, k < 512 → k ≠ n → y.evtEn k = x.evtEn k) ∧ y.seq.w = x.seq.w ∧ y.mem = x.mem)) ∧
    (s.canExec h (.evclr h imm) = true → OnHalf (.evclr h imm) h s (fun y => (n < 281 → y.pendFlag n = false) ∧
      (∀ k, k < 512 → k ≠ n → y.pendFlag k = x.pendFlag k) ∧ y.seq.w = x.seq.w ∧ y.mem = x.mem)) ∧
    (s.canExec h (.evact h imm) = true → OnHalf (.evact h imm) h s (fun y =>
      (n < 281 → y.evtAct n = imm.toNat / 512 % 4) ∧ (∀ k, k < 512 → k ≠ n → y.evtAct k = x.evtAct k) ∧
      y.seq.w = x.seq.w ∧ y.mem = x.mem))

/-- WAITE ends at once with the lowest pending enabled event, whose flag it clears; without one it waits; at its time-out it
ends with all ones (R196, R198). SIG writes `SEQ_HOSTMSG` (R196). The model's choices: the deadline comes as WAITE_TIMEOUT
(log 27). -/
def Sys2Proof.Claims.WaiteTakesTheLowestEvent : Prop :=
  ∀ (h : HalfId) (wd wa : BitVec 5) (imm : BitVec 16) (n : Nat) (s : State), Calm s →
    let x := s.half h
    (s.canExec h (.waite h wd wa) = true → n < 281 → x.pendFlag n = true → x.evtEn n = true →
      (∀ k, k < n → (x.pendFlag k && x.evtEn k) = false) →
      Answers (.waite h wd wa) s (fun t => Status s h wd n t ∧ (t.half h).pendFlag n = false)) ∧
    (s.canExec h (.waite h wd wa) = true → (∀ k, k < 281 → (x.pendFlag k && x.evtEn k) = false) →
      Answers (.waite h wd wa) s (fun t => (t.half h).seq.exec = .wait ∧ (t.half h).seq.w = x.seq.w ∧ (t.half h).seq.pc = x.seq.pc)) ∧
    (∀ dl, x.seq.wait = .waite wd (some dl) → s.seqRuns h = true →
      Answers (.waiteTimeout h) s (fun t => (t.half h).w wd = (if wd = 0#5 then 0#64 else BitVec.allOnes 64) ∧
        (t.half h).seq.pc = x.seq.pc + 1#14 ∧ (t.half h).mem = x.mem)) ∧
    (s.canExec h (.sig h wa imm) = true → OnHalf (.sig h wa imm) h s (fun y =>
      y.reg64 Reg.seqHostmsgLo Reg.seqHostmsgHi = (x.w wa).toNat ∧ y.seq.w = x.seq.w ∧ y.seq.pc = x.seq.pc + 1#14))

/-- ARM asks an engine of its own and waits; ABRT of a PENDING engine ends it at once with ABORTED, of one that is not armed
it answers REFUSED_STATE, of any other it waits for the outcome (R196, R295, R333); CKPT answers all ones while assured
operation is not active, and else asks for a checkpoint and ends with the number of its generation, or with IMM[0] = 1 waits
for the commit; RESTORE answers REFUSED_STATE outside STOPPED and FAULTED and NO_GENERATION for a generation that is not
retained, and otherwise waits for the restore; FALLOW is refused in a run and enters fallow where R555 permits it. The
model's choices: all ones of CKPT and the code of RESTORE without a generation (log 27), CODE of both halves in JOINED (log
113). -/
def Sys2Proof.Claims.EngineCheckpointAndFallowInstructions : Prop :=
  ∀ (h : HalfId) (wd wa : BitVec 5) (imm : BitVec 16) (s : State), Calm s → s.paired h = false →
    let x := s.half h
    (s.canExec h (.arm h wd wa imm) = true → imm.toNat < 4 → x.eng.arming = [] →
      OnHalf (.arm h wd wa imm) h s (fun y => y.seq.exec = .wait ∧
        sget y.eng.arming imm.toNat none = some ((x.w wa).toNat, true) ∧ y.mem = x.mem)) ∧
    (s.canExec h (.abrt h wd imm) = true → imm.toNat < 4 → x.eng.arming = [] → x.asr.active = false →
      (x.trg imm.toNat).st.armed = false →
      Answers (.abrt h wd imm) s (fun t => Status s h wd 1 t ∧ (t.half h).eng.trg = x.eng.trg)) ∧
    (∀ k e, s.canExec h (.abrt h wd imm) = true → engOf (imm.toNat % 256) = some (k, e) → x.eng.arming = [] →
      x.asr.active = false → Calm s → NoErrors x →
      (x.engSt k e = .pending → Answers (.abrt h wd imm) s (fun t => Status s h wd 0x0C t ∧ (t.half h).engSt k e = .done ∧
        (t.half h).rbit (statReg k e) 0 = true ∧ (t.half h).rbit (statReg k e) 1 = true ∧
        (t.half h).rfld (statReg k e) 8 8 = 0x0C ∧ (t.half h).rfld (statReg k e) 16 8 = 0x0C)) ∧
      ((x.engSt k e).armed = false → Answers (.abrt h wd imm) s (fun t => Status s h wd 1 t ∧
        (t.half h).engSt k e = x.engSt k e ∧ (t.half h).rbit (statReg k e) 1 = true ∧
        (t.half h).rfld (statReg k e) 8 8 = 1 ∧ (t.half h).rfld (statReg k e) 16 8 = x.rfld (statReg k e) 16 8)) ∧
      ((x.engSt k e).armed = true → x.engSt k e ≠ .pending → Answers (.abrt h wd imm) s (fun t =>
        (t.half h).seq = { x.seq with exec := .wait, wait := .abrt wd } ∧ (t.half h).engSt k e = x.engSt k e ∧
        (t.half h).regs = x.regs ∧ (t.half h).mem = x.mem))) ∧
    (s.canExec h (.ckpt h wd imm) = true → x.asr.active = false →
      Answers (.ckpt h wd imm) s (fun t => (t.half h).w wd = (if wd = 0#5 then 0#64 else BitVec.allOnes 64) ∧
        (t.half h).asr.phase = x.asr.phase)) ∧
    (s.canExec h (.ckpt h wd imm) = true → x.asr.active = true → x.asr.phase = none → x.run.linked = false → Calm s → NoErrors x →
      (imm.getLsbD 0 = false → Answers (.ckpt h wd imm) s (fun t => Status s h wd x.nextGen t ∧
        (t.half h).asr.phase = some .asked ∧ (t.half h).asr.gens = x.asr.gens)) ∧
      (imm.getLsbD 0 = true → Answers (.ckpt h wd imm) s (fun t =>
        (t.half h).seq = { x.seq with exec := .wait, wait := .ckpt wd } ∧ (t.half h).asr.phase = some .asked ∧
        (t.half h).asr.gens = x.asr.gens ∧ (t.half h).mem = x.mem))) ∧
    (s.canExec h (.restore h wd wa) = true →
      (x.run.state = .ready → Answers (.restore h wd wa) s (Status s h wd 1)) ∧
      (x.run.state = .stopped → x.asr.gens.any (fun g => g.gen == (x.w wa).toNat) = false →
        Answers (.restore h wd wa) s (Status s h wd 0x38)) ∧
      (x.run.state = .stopped → x.asr.gens.any (fun g => g.gen == (x.w wa).toNat) = true →
        Answers (.restore h wd wa) s (fun t => (t.half h).asr.restoring = some (x.w wa).toNat ∧ (t.half h).seq.exec = .wait))) ∧
    (s.canExec h (.fallow h wd) = true →
      (x.run.state = .running → Answers (.fallow h wd) s (fun t => Status s h wd 1 t ∧ (t.half h).sys.fallow = none)) ∧
      (s.mayFallow h = true → Answers (.fallow h wd) s (fun t => (t.half h).sys.fallow.isSome = true)))

/-! ## Ticks and stall points (R31, R167, R175, R182 to R184, R189) -/

/-- The event trace of the half is off (R539). -/
abbrev Sys2Proof.Claims.NoTrace (x : Half) : Prop := x.rbit Reg.trcCtrl 31 = false

/-- A decided tick moves virtual time to its time, whatever its dispatches do; a run that is not in progress, or stands at a
stall point, or has nothing decided, does not tick (R167, R175, R182). The model's choices: a command that cannot arise
changes nothing (log 7). -/
def Obligations.TickMovesVirtualTimeToItsDecision : Prop :=
  ∀ (h : HalfId) (s : State), Calm s → (s.half h).run.mode = .split →
    let x := s.half h
    (∀ d, x.canRun = true → x.run.stall = none → x.run.rest = [] → x.run.decided = some d →
      Answers (.tick h) s (fun t => (t.half h).run.vt = d.vt)) ∧
    (x.canRun = false ∨ x.run.stall.isSome = true ∨ (x.run.rest = [] ∧ x.run.decided = none) →
      exec (.tick h) s = .next s)

/-- An idle decision counts eight steps, in `EDG_IDLE` too, and takes the tick that may now be dispatched (R175, R182, R183). -/
def Sys2Proof.Claims.IdleDecisionsCountEightSteps : Prop :=
  ∀ (h : HalfId) (n : Nat) (s : State), Calm s →
    let x := s.half h
    x.run.mode = .split → x.run.idle = some n → x.canRun = true → x.run.stall = none → x.run.decided = none →
    x.run.linked = false → x.run.holdCyc = none → x.run.holdVt = none →
    OnHalf (.idleDecision h) h s (fun y =>
      y.run.steps = x.run.steps + 8 ∧ y.run.lsc = x.run.lsc + 8#48 ∧ y.run.idle = some (n + 8) ∧
      y.run.decided = s.tickFor h (x.run.steps + 8) ∧
      y.reg64 Reg.edgIdleLo Reg.edgIdleHi = min (x.reg64 Reg.edgIdleLo Reg.edgIdleHi + 8) (2 ^ 64 - 1) ∧
      y.run.cyc = x.run.cyc ∧ y.run.vt = x.run.vt ∧
      y = { x with regs := y.regs, run := y.run } ∧
      ∀ o, o ≠ Reg.edgIdleLo → o ≠ Reg.edgIdleHi → y.reg o = x.reg o)

/-- A stall point whose HBM access has not returned goes on stalling: its steps are counted under the cause they passed
under, and no cycle ends (R31, R184). With a hold condition raised and nothing else, the run is held at the stall point
(R189). The model's choices: the cause under which steps between two samples count (log 29). -/
def Sys2Proof.Claims.StallPointsCountAndHold : Prop :=
  ∀ (h : HalfId) (n : Nat) (p : StallPoint) (s : State), Calm s →
    let x := s.half h
    let c := p.cause
    x.run.mode = .split → x.run.state = .running → x.run.linked = false → x.sys.fallow = none → x.run.stall = some p → c < 8 →
    (x.run.cond = none → x.hbmStall = true → OnHalf (.stallPointRelease h n) h s (fun y =>
      y.run.stall = some { p with
        cause := 0, steps := p.steps + n, mask := if n = 0 ∨ natBit p.mask c then p.mask else p.mask + 2 ^ c } ∧
      y.reg64 (Reg.edgStallLo c) (Reg.edgStallHi c) = min (x.reg64 (Reg.edgStallLo c) (Reg.edgStallHi c) + n) (2 ^ 64 - 1) ∧
      y.run.steps = x.run.steps + n ∧ y.run.cyc = x.run.cyc ∧ y.run.vt = x.run.vt ∧ y.run.state = .running ∧
      y = { x with regs := y.regs, run := y.run } ∧
      ∀ o, o ≠ Reg.edgStallLo c → o ≠ Reg.edgStallHi c → y.reg o = x.reg o)) ∧
    (∀ q, x.run.cond = some q → q.stop = false → x.evtAct 273 = 0 → x.evtEn 273 = false →
      Answers (.stallPointRelease h n) s (fun t =>
      (t.half h).run.state = .held ∧ (t.half h).run.cond = some q ∧ (t.half h).run.cyc = x.run.cyc ∧
      (t.half h).rfld Reg.seqStopinfo 0 16 = q.code % 65536 ∧ (t.half h).pendFlag 273 = true))

/-! ## The sequencer's registers, descriptors and external edges (R170, R179 to R181, R190, R193, R204, R207, R211, R214) -/

/-- The bits of `SEQ_CTRL`: HOLD_REQ and STOP_REQ ask a run in progress, STOP_REQ stops a held one at once, RELEASE_REQ
releases a held run and nothing else, DOORBELL raises event 272, HALT and EXEC stop and start the sequencer (R189 to R191,
R193, R204). The model's choices: the order of several bits of one write (log 31), a command that cannot arise changes
nothing (log 7). -/
def Sys2Proof.Claims.SequencerControlBitsAct : Prop :=
  ∀ (h : HalfId) (m : Master) (s : State), Served s h m → Calm s → s.paired h = false →
    let x := s.half h
    (x.run.state = .running → OnHalf (.holdReq h m) h s (fun y =>
      y = { x with run := { x.run with req := y.run.req } } ∧ y.run.req.map (fun q => (q.code, q.stop)) = some (8, false))) ∧
    (x.run.state = .running → OnHalf (.stopReq h m) h s (fun y =>
      y = { x with run := { x.run with req := y.run.req } } ∧ y.run.req.map (fun q => q.stop) = some true)) ∧
    (x.run.state = .held → Answers (.stopReq h m) s (fun t => (t.half h).run.state = .stopped)) ∧
    (x.run.state = .held → OnHalf (.releaseReq h m) h s (fun y => y.run.state = .running ∧ y.run.cond = none ∧
      y.run.cyc = x.run.cyc ∧ y.mem = x.mem ∧ y.seq = x.seq)) ∧
    (x.run.state ≠ .held → exec (.releaseReq h m) s = .next s) ∧
    (x.inRun = false → exec (.holdReq h m) s = .next s ∧ exec (.stopReq h m) s = .next s) ∧
    (x.seq.exec ≠ .wait → x.seq.wait = .none → x.evtAct 272 = 0 → NoTrace x → OnHalf (.doorbell h m) h s (fun y =>
      OnlyRegs [Reg.seqEvtPend 8] x y ∧ y.pendFlag 272 = true ∧ ∀ k, k < 512 → k ≠ 272 → y.pendFlag k = x.pendFlag k)) ∧
    (x.seq.exec = .exec → OnHalf (.seqCtrlHalt h m) h s (fun y => y = { x with seq := { x.seq with exec := .halted } })) ∧
    (x.seq.exec = .halted → s.seqRuns h = true → x.seq.pc.toNat < x.seq.progWords →
      opReserved (x.seqWord.toNat % 64) = false →
      OnHalf (.seqExec h m) h s (fun y => y.seq = { x.seq with exec := .exec } ∧ y.mem = x.mem ∧ y.run = x.run))

/-- `SEQ_FAULT` written with FAULT = 1 clears the register and leaves a faulted sequencer HALTED; the timer's expiry raises
event 280; a descriptor word takes what is written, but for the DOMAIN byte of word 5, and nothing during a run (R170, R193,
R207, R211, R214). The model's choices: the PC after a write that follows a load (log 83), the DOMAIN byte between a load
and a start (logs 41, 98), a command that cannot arise changes nothing (log 7). -/
def Sys2Proof.Claims.SequencerFaultTimerAndDescriptors : Prop :=
  ∀ (h : HalfId) (m : Master) (s : State), Served s h m →
    let x := s.half h
    (∀ v, wbit v 0 = true → x.rbit Reg.seqFault 0 = true → x.seq.exec = .fault →
      OnHalf (.seqFaultClear h m v) h s (fun y => y = { x with regs := y.regs, seq := { x.seq with exec := .halted } } ∧
        y.reg Reg.seqFault = 0#32 ∧ ∀ o, o ≠ Reg.seqFault → y.reg o = x.reg o)) ∧
    (∀ v, wbit v 0 = false → exec (.seqFaultClear h m v) s = .next s) ∧
    (Calm s → x.reg Reg.seqTimer ≠ 0#32 → x.seq.wait = .none → x.evtAct 280 = 0 → NoTrace x →
      OnHalf (.seqTimerExpiry h) h s (fun y => OnlyRegs [Reg.seqTimer, Reg.seqEvtPend 8] x y ∧ y.reg Reg.seqTimer = 0#32 ∧
        y.pendFlag 280 = true)) ∧
    (∀ (slot : BitVec 7) (word : BitVec 3) (v : Word),
      (x.inRun = false → OnHalf (.edgDescWrite h m slot word v) h s (fun y =>
        OnlyRegs [Reg.edgDesc slot.toNat word.toNat] x y ∧
        (word ≠ 5#3 → y.reg (Reg.edgDesc slot.toNat word.toNat) = v) ∧
        (word = 5#3 → y.rfld (Reg.edgDesc slot.toNat 5) 0 16 = fld v 0 16 ∧ y.rfld (Reg.edgDesc slot.toNat 5) 24 8 = 0 ∧
          y.rfld (Reg.edgDesc slot.toNat 5) 16 8 = x.rfld (Reg.edgDesc slot.toNat 5) 16 8))) ∧
      (x.inRun = true → OnHalf (.edgDescWrite h m slot word v) h s (fun y => y.regs = x.regs ∧ y.run = x.run)))

/-- An edge that the fabric presents joins the end of the queue; one for a domain that does not take it is counted in
`EDG_EXTREF` and raises event 275; with 61 entries or no fabric it waits outside (R179, R180, R414). The model's choices:
which edges are of one fabric cycle (log 84), a command that cannot arise changes nothing (log 7). -/
def Obligations.ExternalEdgesQueueOrAreRefused : Prop :=
  ∀ (h : HalfId) (dom : BitVec 8) (falling : Bool) (s : State),
    let x := s.half h
    let twin := s.paired h && x.run.mode == .paired
    (x.fab.live ≠ 0 → x.extDepth ≤ 60 → x.run.state ≠ .recovering → s.edgeRefused h ⟨dom.toNat, falling⟩ = false →
      x.asr.active = false → twin = true → Answers (.extEdgeEvent h dom falling) s (fun t =>
        ∃ c, x.edgeCycle = some c ∧ ∀ k, (c.queued = 0 → (t.half k).run.ext =
            (s.half k).run.ext ++ [⟨⟨dom.toNat, falling⟩, (s.half k).run.steps, none⟩]) ∧
          t.half k = { s.half k with run := { (s.half k).run with ext := (t.half k).run.ext, edges := (t.half k).run.edges } })) ∧
    (x.fab.live ≠ 0 → x.extDepth ≤ 60 → x.run.state ≠ .recovering → s.edgeRefused h ⟨dom.toNat, falling⟩ = false →
      x.asr.active = false → twin = false → OnHalf (.extEdgeEvent h dom falling) h s (fun y =>
        ∃ c, x.edgeCycle = some c ∧
          y = { x with run := { x.run with
            ext := y.run.ext, edges := some { c with taken := c.taken + 1, queued := c.queued + 1 } } } ∧
          (∃ l m, x.run.ext.map (fun e => e.due) = l ++ m ∧ m.length ≤ c.queued ∧
            y.run.ext.map (fun e => e.due) = l ++ ⟨dom.toNat, falling⟩ :: m) ∧
          (c.queued = 0 → y.run.ext = x.run.ext ++ [⟨⟨dom.toNat, falling⟩, x.run.steps, none⟩]))) ∧
    (Calm s → x.fab.live ≠ 0 → x.extDepth ≤ 60 → x.run.state ≠ .recovering → s.edgeRefused h ⟨dom.toNat, falling⟩ = true →
      x.seq.wait = .none → x.evtAct 275 = 0 → NoTrace x → OnHalf (.extEdgeEvent h dom falling) h s (fun y =>
        OnlyRegs [Reg.edgExtref, Reg.seqEvtPend 8] x { y with run := x.run } ∧ y.run = { x.run with edges := y.run.edges } ∧
        y.pendFlag 275 = true ∧
        (y.reg Reg.edgExtref).toNat = min ((x.reg Reg.edgExtref).toNat + 1) (2 ^ 32 - 1))) ∧
    (x.fab.live = 0 ∨ x.edgeCycle = none → exec (.extEdgeEvent h dom falling) s = .next s) ∧
    (60 < x.extDepth → x.run.edges = none → x.edgeCycle = none)

/-! ## Design memories (R216 to R250) -/

/-- A bank access reads or writes the bytes at its address and leaves every other byte; a read value enters the port's read-data
register when it arrives (R221, R222, R226). An HBM read that returns ends its stall, and a word that cannot be corrected
delivers 0 and faults the half; a posted write is taken (R227 to R229, R238). -/
def Sys2Proof.Claims.DesignMemoryAccessesReadAndWrite : Prop :=
  ∀ (h : HalfId) (s : State),
    let x := s.half h
    (∀ (o : BankOp) (v : Nat), NoErrors x → x.ar.bankQ = [o] → o.write = some v →
      OnHalf (.bankAccess h) h s (fun y => leNat (rdBytes y.mem o.addr o.bytes) = v % 256 ^ o.bytes ∧ y.ar.bankQ = [] ∧
        (∀ a, a < o.addr ∨ o.addr + o.bytes ≤ a → rdByte y.mem a = rdByte x.mem a) ∧
        y = { x with mem := y.mem, ar := y.ar, mt := y.mt } ∧ y.ar.rdata = x.ar.rdata)) ∧
    (∀ o : BankOp, NoErrors x → x.ar.bankQ = [o] → o.write = none →
      OnHalf (.bankAccess h) h s (fun y => y = { x with ar := { x.ar with
        bankQ := [], bankRet := x.ar.bankRet ++
          [⟨o.ret, o.tile, o.port, BitVec.ofNat 64 (leNat (rdBytes x.mem o.addr o.bytes))⟩] } })) ∧
    (∀ r : BankRet, x.ar.bankRet = [r] → OnHalf (.bankReadReturn h) h s (fun y =>
      (∀ k, sget y.ar.rdata k 0#64 = if k = r.tile * 4 + r.port then r.data else sget x.ar.rdata k 0#64) ∧
      y = { x with ar := { x.ar with bankRet := [], rdata := y.ar.rdata } })) ∧
    (∀ (tile : BitVec 6) (port : BitVec 2) (r : HbmRead), x.ar.hbmRd = [r] → r.tile = tile.toNat → r.port = port.toNat →
      r.back = false →
      (NoErrors x ∨ r.own = true → OnHalf (.hbmReadReturn h tile port) h s (fun y =>
        y = { x with ar := { x.ar with hbmRd := [{ r with back := true }] } })) ∧
      (x.eccAt (r.addr / 8 * 8) = some true → r.own = false → OnHalf (.hbmReadReturn h tile port) h s (fun y =>
        y.ar.hbmRd = [{ r with back := true, data := 0#64 }] ∧ y.run.hfault = true ∧ y.rbit Reg.memErrStatus 0 = true ∧
        y.mem = x.mem))) ∧
    (∀ (tile : BitVec 6) (port : BitVec 2) (w : HbmWrite), x.ar.hbmWr = [w] → w.tile = tile.toNat → w.port = port.toNat →
      w.taken = false → OnHalf (.hbmPostedWrite h tile port) h s (fun y =>
        y = { x with ar := { x.ar with hbmWr := [{ w with taken := true }] } }))

/-- The patrol corrects and counts a single-bit error of an HBM word and records an uncorrectable one; `MEM_ERR_STATUS` is
cleared by writing 1, with the address, the source and the counts that belong to it (R238 to R240). The model's choices: a
command that cannot arise changes nothing (log 7). -/
def Sys2Proof.Claims.PatrolAndErrorStatus : Prop :=
  ∀ (h : HalfId) (s : State),
    let x := s.half h
    (∀ a : Nat, a % 8 = 0 → hbmBase ≤ a → a < 0x1600000000 - 8 →
      (x.eccAt a = some false → OnHalf (.hbmPatrol h (BitVec.ofNat 40 a)) h s (fun y => y.eccAt a = none ∧
        y.rfld (Reg.hbcEccCount 0) 0 16 = min (x.rfld (Reg.hbcEccCount 0) 0 16 + 1) 65535 ∧ y.mem = x.mem ∧
        ∀ b, b ≠ a → y.eccAt b = x.eccAt b)) ∧
      (x.eccAt a = some true → x.rbit Reg.memErrStatus 0 = false → OnHalf (.hbmPatrol h (BitVec.ofNat 40 a)) h s (fun y =>
        y.rbit Reg.memErrStatus 0 = true ∧ y.rfld Reg.memErrStatus 4 4 = 3 ∧ y.reg64 Reg.memErrAddrLo Reg.memErrAddrHi = a ∧
        OnlyRegs [Reg.memErrStatus, Reg.memErrAddrLo, Reg.memErrAddrHi] x y)) ∧
      (x.eccAt a = none → exec (.hbmPatrol h (BitVec.ofNat 40 a)) s = .next s)) ∧
    (∀ (m : Master) (v : Word), Served s h m → OnHalf (.memErrStatusWrite h m v) h s (fun y =>
      OnlyRegs [Reg.memErrStatus, Reg.memErrAddrLo, Reg.memErrAddrHi, Reg.memEccCount] x y ∧
      y.rbit Reg.memErrStatus 0 = (x.rbit Reg.memErrStatus 0 && !wbit v 0) ∧
      y.rbit Reg.memErrStatus 1 = (x.rbit Reg.memErrStatus 1 && !wbit v 1) ∧
      (wbit v 0 = true → y.reg64 Reg.memErrAddrLo Reg.memErrAddrHi = 0 ∧ y.rfld Reg.memErrStatus 4 4 = 0) ∧
      (wbit v 1 = true → y.reg Reg.memEccCount = 0#32)))

/-- A march test begins when no run and no test is in progress and a store is selected; without REPAIR it ends PASS or
FAILED as found, aborted it ends ABORTED; without PRESERVE the half is no longer loaded, with it a test that repairs loses
contents and tells so (R242 to R246). The background tester starts a pass, records its first failure and goes on to the next
region (R247 to R250). The model's choices: an ABORT written in the register (log 44), spares told with the findings (log
94), which flag clears the fail address (log 95). -/
def Sys2Proof.Claims.MemoryTestersRunAndReport : Prop :=
  ∀ (h : HalfId) (m : Master) (s : State), Served s h m →
    let x := s.half h
    (∀ v, x.marchBusy = false → x.inRun = false → fld v 4 4 ≠ 0 → OnHalf (.marchStart h m v) h s (fun y =>
      y.marchBusy = true ∧ y.rfld Reg.memMarchCtrl 2 6 = fld v 2 6 ∧ y.mt = { x.mt with ctrl := v ||| 1#32, ending := false } ∧
      y = { x with regs := y.regs, mt := y.mt } ∧
      ∀ o, o ≠ Reg.memMarchStatus → o ≠ Reg.memMarchCtrl → y.reg o = x.reg o)) ∧
    (∀ v, x.inRun = true → x.marchBusy = false → OnHalf (.marchStart h m v) h s (fun y =>
      y.marchBusy = false ∧ OnlyRegs [Reg.memMarchCtrl] x y)) ∧
    (∀ found, x.marchBusy = true → wbit x.mt.ctrl 3 = false → OnHalf (.marchDone h found) h s (fun y =>
      y.marchBusy = false ∧ y.rbit Reg.memMarchStatus 1 = true ∧
      y.rfld Reg.memMarchStatus 8 4 = (if x.mt.ending then 5 else if found = [] then 1 else 4) ∧
      y.out = .memIrq :: x.out ∧ (wbit x.mt.ctrl 2 = true → y.mem = x.mem ∧ y.run = x.run) ∧
      (wbit x.mt.ctrl 2 = false → y.run.state = .unloaded))) ∧
    (∀ found, x.marchBusy = true → wbit x.mt.ctrl 3 = true → wbit x.mt.ctrl 2 = true → found ≠ [] →
      OnHalf (.marchDone h found) h s (fun y => y.run.state = .unloaded ∧ y.rbit Reg.memMarchStatus 2 = true)) ∧
    (∀ found, x.marchBusy = true → OnHalf (.marchAbort h m found) h s (fun y =>
      y.marchBusy = false ∧ y.rbit Reg.memMarchStatus 1 = true ∧ y.rfld Reg.memMarchStatus 8 4 = 5)) ∧
    (∀ v, wbit v 0 = true → x.rbit Reg.memBgtCtrl 0 = false → OnHalf (.bgtEnable h m v) h s (fun y =>
      y.rbit Reg.memBgtCtrl 0 = true ∧ y.rbit Reg.memBgtStatus 0 = true ∧ y.rfld Reg.memBgtStatus 16 16 = 0 ∧
      y.mt.region = 0 ∧ y.mt.sig = [] ∧ y.mem = x.mem)) ∧
    (∀ (a : BitVec 40) (b : BitVec 8), x.rbit Reg.memBgtStatus 0 = true → x.rbit Reg.memBgtStatus 1 = false →
      x.rbit Reg.memBgtStatus 2 = false → x.mt.region % 16 ≠ 15 → x.mt.region < 294911 →
      OnHalf (.bgtRegion h (some (a, b))) h s (fun y => y.rbit Reg.memBgtStatus 1 = true ∧
        y.reg64 Reg.memBgtFailLo Reg.memBgtFailHi = a.toNat ∧ y.rfld Reg.memBgtStatus 8 8 = b.toNat ∧
        y.mt = { x.mt with region := x.mt.region + 1 } ∧ y.mem = x.mem))

/-! ## The transaction engine (R251 to R289) -/

/-- What the transaction with a TID is, after a command. -/
def Sys2Proof.Claims.Tx (t : State) (h : HalfId) (tid : Nat) (P : Txn → Prop) : Prop := ∃ u, (t.half h).txn tid = some u ∧ P u

/-- The engine of the half takes entries of queue `q` directly: it has an entry there, may read it, no recovery is in progress,
and assured operation, with its journal, is not active. -/
abbrev Sys2Proof.Claims.Takes (s : State) (h : HalfId) (q : Nat) (e : Bytes) : Prop :=
  Calm s ∧ (s.half h).asr.active = false ∧ (s.half h).run.state ≠ .recovering ∧ (s.half h).sqHas q = true ∧
  (s.half h).canFetch q = true ∧ (s.half h).entryBytes q e = (e, s.half h)

/-- A doorbell is taken with code 0 and moves the tail, or is refused with the code of its reason and moves nothing: 1 where the
engine or the queue is disabled (R260). -/
def Sys2Proof.Claims.DoorbellsMoveTheTailOrAreRefused : Prop :=
  ∀ (h : HalfId) (m : Master) (q : BitVec 6) (tail : Word) (s : State), Served s h m →
    let x := s.half h
    let c := x.dbCode q.toNat (fld tail 0 16)
    Answers (.sqDoorbell h m q tail) s (fun t =>
      (t.half h).rfld (Reg.txeSqStat q.toNat) 0 4 = c ∧
      (t.half h).reg (Reg.txeSqTail q.toNat) = (if c = 0 then BitVec.ofNat 32 (fld tail 0 16) else x.reg (Reg.txeSqTail q.toNat)) ∧
      (c = 0 ∨ (t.half h).rbit (Reg.txeSqStat q.toNat) 4 = true) ∧
      (x.rbit Reg.txeCtrl 0 = false ∨ x.rbit (Reg.txeSqCfg q.toNat) 31 = false → c = 1) ∧
      (x.rbit Reg.txeCtrl 0 = true → x.rbit (Reg.txeSqCfg q.toNat) 31 = true →
        x.rfld (Reg.txeSqCfg q.toNat) 0 16 ≤ fld tail 0 16 → c = 2))

/-- A CREATE without an operand makes a transaction of its template under the lowest free TID; a FILL gives its operand to the
transaction it names; an ABORT ends one that has not reached its commit point with ABORTED; HEAD passes each entry (R251, R259,
R262, R263, R268, R271). The model's choices: SEQ of a CREATED entry (log 79). -/
def Sys2Proof.Claims.QueueEntriesAreTaken : Prop :=
  ∀ (h : HalfId) (q : BitVec 6) (e : Bytes) (s : State), Takes s h q.toNat e →
    let x := s.half h
    let hd := x.rfld (Reg.txeSqStat q.toNat) 16 16
    let next := if hd + 1 = x.rfld (Reg.txeSqCfg q.toNat) 0 16 then 0 else (hd + 1) % 65536
    (∀ t tid, bn e 0 1 = 1 → x.createTmpl e = some t → sqLen e = 0 → x.freeTids.head? = some tid →
      Answers (.create h q e) s (fun y => Tx y h tid (fun u => u.t = t ∧ u.maker = some q.toNat ∧ u.h = none ∧
        u.ctag = BitVec.ofNat 32 (bn e 8 4) ∧ u.born = x.txe.created + 1) ∧
        (y.half h).rfld (Reg.txeSqStat q.toNat) 16 16 = next)) ∧
    (bn e 0 1 = 1 → x.createTmpl e = none → Answers (.create h q e) s (fun y =>
      (y.half h).rbit Reg.txeErr 2 = true ∧ (y.half h).txe.created = x.txe.created)) ∧
    (∀ t, bn e 0 1 = 2 → x.fillTxn e = some t → t.h = none → Answers (.fill h q e) s (fun y =>
      Tx y h (bn e 4 2) (fun u => u.t = t.t ∧ u.h.map (fun o => (o.sq, o.len, o.addr)) = some (q.toNat, sqLen e, bn e 0x10 8)) ∧
      (y.half h).rfld (Reg.txeSqStat q.toNat) 16 16 = next)) ∧
    (∀ t, bn e 0 1 = 3 → sqShape e = true → bn e 2 2 = 0 → bn e 6 2 = 0xFFFF → x.txn (bn e 4 2) = some t →
      t.retired = false → t.outcome = none → t.commit = none → Answers (.sqAbort h q e) s (fun y =>
        Tx y h (bn e 4 2) (fun u => u.outcome = some (0x0C, x.run.cyc))))

/-- An operand is accepted with the next acceptance sequence number and the bytes read; a ready MOVE to a port puts its payload
into the port's inbound buffer as one message; a transaction whose outcome is reported leaves an entry in its CQ, moves the CQ's
tail, and its TID becomes free (R261, R263, R264, R266, R267, R272). -/
def Sys2Proof.Claims.TransactionsRunToTheirEntries : Prop :=
  ∀ (h : HalfId) (tid : BitVec 12) (t : Txn) (s : State), Calm s →
    let x := s.half h
    x.asr.active = false → x.run.state ≠ .recovering → x.fabLead = true → x.sys.fallow = none → x.txn tid.toNat = some t →
    (∀ o payload, t.h = some o → o.seq = none → o.inline = none → x.canFetch o.sq = true → x.qBound o.sq = false →
      payload.length = o.len → Answers (.hOperandAccept h tid payload) s (fun y =>
        Tx y h tid.toNat (fun u => u.h = some { o with payload := payload, seq := some (x.txe.aseq + 1) }))) ∧
    (∀ o p, x.txe.readyQ = [tid.toNat] → t.t.handler = 1 → t.t.dst = dport p → p < 256 → t.h = some o → t.sent = 0 →
      Answers (.dispatch h) s (fun y => ((y.half h).tport p).inq = (x.tport p).inq ++ [⟨tid.toNat, o.payload, true, 0⟩] ∧
        Tx y h tid.toNat (fun u => u.running = true ∧ u.sent = o.payload.length))) ∧
    (∀ st cyc q, t.outcome = some (st, cyc) → t.cq = some q → q < 64 → x.cqOn q = true → x.cqRoom q ≠ 0 →
      x.txe.doneQ = [tid.toNat] → 256 ≤ tid.toNat → Answers (.transactionComplete h tid) s (fun y =>
        (y.half h).txn tid.toNat = none ∧
        (y.half h).cqTail q = (if x.cqTail q + 1 = x.cqSize q then 0 else (x.cqTail q + 1) % 65536) ∧
        (x.replaying = false → x.run.mode = .split → x.pci.down = false → x.busMaster = true → x.qBound q = false →
          x.rfld (Reg.txeCqBaseLo q) 12 20 * 4096 + (x.reg (Reg.txeCqBaseHi q)).toNat * 2 ^ 32 + x.cqTail q * 32 < 2 ^ 64 →
          ∃ bs, Output.hostWrite (BitVec.ofNat 64 (x.rfld (Reg.txeCqBaseLo q) 12 20 * 4096 +
              (x.reg (Reg.txeCqBaseHi q)).toNat * 2 ^ 32 + x.cqTail q * 32)) bs ∈ (y.half h).out ∧
            bs.take 3 = leBytes 2 tid.toNat ++ leBytes 1 st)))

/-- A wait in nanoseconds that runs out ends a transaction of no design port with TIMEOUT; a write of `TXE_ABORT` with ABORT
= 1 ends an uncommitted one with ABORTED; an operand that the host does not deliver ends its transaction with HOST_FAULT
(R262, R270, R271, R285, R480). The model's choices: a HOST_FAULT that names no transaction (log 77), a command that cannot
arise changes nothing (log 7). -/
def Sys2Proof.Claims.TransactionsEndEarly : Prop :=
  ∀ (h : HalfId) (m : Master) (tid : BitVec 12) (t : Txn) (s : State), Calm s →
    let x := s.half h
    x.asr.active = false → x.run.state ≠ .recovering → x.txn tid.toNat = some t → t.retired = false → t.outcome = none →
    let ends := fun (c : Instr) (code : Nat) =>
      Answers c s (fun y => Tx y h tid.toNat (fun u => u.outcome = some (code, x.run.cyc)))
    (t.ready = false → t.running = false → t.t.toNs = true → t.t.timeout ≠ 0 → t.expiring = false → t.t.firstPort = none →
      ends (.txeTimeout h tid) 0x21) ∧
    (∀ v, Served s h m → wbit v 31 = true → fld v 0 12 = tid.toNat → t.commit = none → ends (.txeAbort h m v) 0x0C) ∧
    (∀ v, Served s h m → wbit v 31 = false → exec (.txeAbort h m v) s = .next s) ∧
    (∀ o, t.h = some o → o.seq = none → x.pci.down = false → ends (.hostFault h tid) 0x23)

/-- The queue registers: HEAD of a CQ is taken; a queue that is enabled starts at its first place, an SQ with tail 0, a CQ
with PHASE 1, but between an import and the resumed start it keeps its positions (R372); SIZE is read-only while the queue
is enabled, and a size below 2 does not enable it (R261, R287). The model's choices: EN between an import and the resumed
start (log 122). -/
def Sys2Proof.Claims.QueueRegistersTakeTheirValues : Prop :=
  ∀ (h : HalfId) (m : Master) (q : BitVec 6) (v : Word) (s : State), Served s h m → Calm s →
    let x := s.half h
    let k := q.toNat
    (x.asr.active = false → Answers (.cqHeadWrite h m q v) s (fun t =>
      (t.half h).reg (Reg.txeCqHead k) = BitVec.ofNat 32 (fld v 0 16) ∧ sget (t.half h).txe.cqHead k 0 = fld v 0 16)) ∧
    (x.rbit (Reg.txeSqCfg k) 31 = false → wbit v 31 = true → 2 ≤ fld v 0 16 → Answers (.sqEnable h m q v) s (fun t =>
      (t.half h).rbit (Reg.txeSqCfg k) 31 = true ∧ (t.half h).rfld (Reg.txeSqCfg k) 0 16 = fld v 0 16 ∧
      (x.asr.landed = false → (t.half h).reg (Reg.txeSqTail k) = 0#32 ∧ (t.half h).rfld (Reg.txeSqStat k) 16 16 = 0) ∧
      (x.asr.landed = true → (t.half h).reg (Reg.txeSqTail k) = x.reg (Reg.txeSqTail k) ∧
        (t.half h).rfld (Reg.txeSqStat k) 16 16 = x.rfld (Reg.txeSqStat k) 16 16))) ∧
    (x.rbit (Reg.txeCqCfg k) 31 = false → wbit v 31 = true → 2 ≤ fld v 0 16 → Answers (.cqEnable h m q v) s (fun t =>
      (t.half h).rbit (Reg.txeCqCfg k) 31 = true ∧ (t.half h).cqSize k = fld v 0 16 ∧
      (x.asr.landed = false → (t.half h).cqTail k = 0 ∧ (t.half h).rfld (Reg.txeCqStat k) 0 1 = 1 ∧
        (t.half h).reg (Reg.txeCqHead k) = 0#32) ∧
      (x.asr.landed = true → (t.half h).cqTail k = x.cqTail k ∧ (t.half h).reg (Reg.txeCqStat k) = x.reg (Reg.txeCqStat k) ∧
        (t.half h).reg (Reg.txeCqHead k) = x.reg (Reg.txeCqHead k)))) ∧
    (x.rbit (Reg.txeSqCfg k) 31 = true → Answers (.sqEnable h m q v) s (fun t =>
      (t.half h).rfld (Reg.txeSqCfg k) 0 16 = x.rfld (Reg.txeSqCfg k) 0 16 ∧
      (t.half h).rbit (Reg.txeSqCfg k) 31 = wbit v 31)) ∧
    (x.rbit (Reg.txeSqCfg k) 31 = false → wbit v 31 = true → fld v 0 16 < 2 → Answers (.sqEnable h m q v) s (fun t =>
      (t.half h).reg (Reg.txeSqCfg k) = x.reg (Reg.txeSqCfg k)))

/-! ## Trigger, capture and playback engines (R290 to R335) -/

/-- A write of an engine's control register with ARM = 1 and ABORT = 0 asks for an arm, both at once are ignored; the arm
completes with a status: REFUSED_UNLOADED without an image, OK with a valid TRIGGER descriptor, whose engine is then
PENDING; an abort ends a PENDING engine with ABORTED and is LATE for one that is not armed (R291, R294, R295, R332, R333).
The model's choices: an arm in HELD under assured operation (log 11), an index past the table (log 46), a command that
cannot arise changes nothing (log 7). -/
def Sys2Proof.Claims.EnginesAreArmedAndAborted : Prop :=
  ∀ (h : HalfId) (m : Master) (k : EngKind) (e : BitVec 2) (v : Word) (s : State), Served s h m → Calm s →
    let x := s.half h
    let n := e.toNat
    x.run.mode = .split → x.asr.active = false →
    (wbit v 13 = false → x.eng.arming = [] → OnHalf (.engineArm h m k e v) h s (fun y =>
      sget y.eng.arming (engNum k n) none = some (fld v 0 12, false) ∧ y.reg (ctlReg k n) = v &&& 0xFF800FFF#32 ∧
      OnlyRegs [ctlReg k n] x { y with eng := x.eng } ∧ y.engSt k n = x.engSt k n)) ∧
    (wbit v 13 = true → exec (.engineArm h m k e v) s = .next s) ∧
    (∀ idx, sget x.eng.arming (engNum k n) none = some (idx, false) →
      (x.run.loaded = none → OnHalf (.armComplete h k e) h s (fun y => y.rfld (statReg k n) 16 8 = 2 ∧
        y.engSt k n = x.engSt k n ∧ sget y.eng.arming (engNum k n) none = none ∧ y.mem = x.mem)) ∧
      (∀ d, k = .trigger → x.run.loaded ≠ none → (x.trg n).st.armed = false → trgParse (x.descAt idx 9) = some d →
        d.every = true → OnHalf (.armComplete h k e) h s (fun y => y.rfld (Reg.trgStat n) 16 8 = 0 ∧
          y.rbit (Reg.trgStat n) 0 = x.rbit (Reg.trgStat n) 0 ∧ (y.trg n).st = .pending ∧ (y.trg n).desc = some d ∧ y.mem = x.mem))) ∧
    (wbit v 12 = false → x.eng.arming = [] →
      (x.engSt k n = .pending → OnHalf (.engineAbort h m k e v) h s (fun y => y.engSt k n = .done ∧
        y.rfld (statReg k n) 16 8 = 0x0C ∧ y.rbit (statReg k n) 0 = true ∧ y.rfld (statReg k n) 8 8 = 0x0C ∧
        y.rbit (statReg k n) 1 = true ∧ y.mem = x.mem)) ∧
      ((x.engSt k n).armed = false → OnHalf (.engineAbort h m k e v) h s (fun y => y.engSt k n = x.engSt k n ∧
        y.rfld (statReg k n) 8 8 = 1 ∧ y.rbit (statReg k n) 1 = true ∧ y.mem = x.mem)))

/-- An XO action sets, clears or pulses the engine's output at the time that is latched, and a pulse ends; records go from
the staging buffer to their region or to the host ring in order; HEAD of the host ring takes what is written but for bits
[2:0]; a prefetch puts the next vector of the pattern into the buffer (R303, R307, R320, R321, R327, R328, R335). The
model's choices: WPTR after a record that ends at the region's end (log 115), a command that cannot arise changes nothing
(log 7). -/
def Sys2Proof.Claims.EnginesDriveWriteAndRead : Prop :=
  ∀ (h : HalfId) (m : Master) (e : BitVec 2) (s : State), (s.half h).run.mode = .split →
    let x := s.half h
    let n := e.toNat
    (∀ o, (x.trg n).xoQ = [o] → o.fire = none → OnHalf (.xoAction h e) h s (fun y =>
      y.trg n = { x.trg n with xoQ := [], xo := o.op != 1, pulse := o.op == 2, xoTime := x.phc } ∧
      y = { x with eng := { x.eng with trg := y.eng.trg } } ∧ ∀ i, i ≠ n → y.trg i = x.trg i)) ∧
    ((x.trg n).pulse = true → OnHalf (.xoPulseEnd h e) h s (fun y =>
      y.trg n = { x.trg n with xo := false, pulse := false } ∧ y = { x with eng := { x.eng with trg := y.eng.trg } } ∧
      ∀ i, i ≠ n → y.trg i = x.trg i)) ∧
    (∀ base off bs l, (x.cap n).staged = ⟨.region base off false, bs, false⟩ :: l → OnHalf (.recordDrain h e) h s (fun y =>
      (∀ i (hi : i < bs.length), rdByte y.mem (hbmBase + base + off + i) = bs[i]) ∧
      (∀ a, a < hbmBase + base + off ∨ hbmBase + base + off + bs.length ≤ a → rdByte y.mem a = rdByte x.mem a) ∧
      y.cap n = { x.cap n with staged := l } ∧ y.regs = x.regs)) ∧
    (∀ base off size bs l, (x.cap n).staged = ⟨.host base off size, bs, false⟩ :: l → x.pci.down = false →
      x.busMaster = true → (x.cap n).hsSkip = 0 →
      (x.hsFull n = false → OnHalf (.hostStreamWrite h e true) h s (fun y =>
        y.out = .hostWrite (BitVec.ofNat 64 (base + off)) bs :: x.out ∧ (y.cap n).staged = l ∧ y.mem = x.mem)) ∧
      (x.hsFull n = true → exec (.hostStreamWrite h e true) s = .next s)) ∧
    (∀ v, Served s h m → OnHalf (.capHsHeadWrite h m e v) h s (fun y => OnlyRegs [Reg.capHsHead n] x y ∧
      y.reg (Reg.capHsHead n) = v &&& 0xFFFFFFF8#32)) ∧
    (∀ d, (x.ply n).desc = some d → (x.ply n).st.armed = true → ((x.ply n).buf.length + 1) * d.recSize ≤ 32768 →
      d.loops = 0 → d.held = false → NoErrors x → OnHalf (.playbackPrefetch h e) h s (fun y =>
        (y.ply n).buf = (x.ply n).buf ++ [(1, x.rdMem (hbmBase + d.base + (x.ply n).nextV * d.recSize) (8 * ((d.width + 63) / 64)))] ∧
        (y.ply n).nextV = (if (x.ply n).nextV + 1 = d.vectors then 0 else (x.ply n).nextV + 1) ∧
        y = { x with eng := { x.eng with ply := y.eng.ply } }))

/-! ## Assured operation (R337 to R380) -/

/-- Half `h` and its image run for itself, in SPLIT, and nothing waits to take effect in the other half. -/
abbrev Sys2Proof.Claims.Alone (s : State) (h : HalfId) : Prop :=
  (s.half h).run.mode = .split ∧ (s.half h).imgMode = .split ∧ (s.half (otherHalf h)).run.req = none ∧ (s.half (otherHalf h)).run.hfault = false

/-- EN written 1 takes effect exactly when the check reports EN_ERR 0, and the check reports the first condition of R340
that fails; written 0 it ends assured operation. CKPT_LOG2 takes a value from 10 to 32 outside a run (R340, R374). NEED_MIB,
which the specification leaves to the implementation, is a free value here: the statement holds for each. The model's
choices: EN written on the half that does not lead, and what becomes of pending inputs (logs 35, 100). -/
def Obligations.EnablingAssuredOperationIsChecked : Prop :=
  ∀ (h : HalfId) (m : Master) (v : Word) (s : State), Served s h m → Calm s → Alone s h →
    let x := s.half h
    (x.rbit Reg.asrCtrl 0 = false → wbit v 0 = true → wbit v 1 = false → wbit v 2 = false →
      OnHalf (.asrEnWrite h m v) h s (fun y =>
        y.rfld Reg.asrStatus 20 4 = x.enErr (y.rfld Reg.asrNeed 0 16) false ∧
        y.rbit Reg.asrCtrl 0 = decide (y.rfld Reg.asrStatus 20 4 = 0) ∧ y.asr = x.asr ∧ y.run = x.run ∧ y.mem = x.mem ∧
        (x.run.loaded = none → y.rfld Reg.asrStatus 20 4 = 1) ∧
        (x.run.state = .running → x.run.loaded.isSome = true → x.run.assured = true → y.rfld Reg.asrStatus 20 4 = 2) ∧
        (x.inRun = false → 10 ≤ fld v 8 6 → fld v 8 6 ≤ 32 → y.rfld Reg.asrCtrl 8 6 = fld v 8 6))) ∧
    (x.rbit Reg.asrCtrl 0 = true → x.asr.active = false → v = 0#32 → OnHalf (.asrEnWrite h m v) h s (fun y =>
      y.rbit Reg.asrCtrl 0 = false ∧ y.asr.st = .off ∧ y.asr.journal = [] ∧ y.asr.waiting = [] ∧
      (x.asr.journal = [] → x.asr.waiting = [] → y.run = x.run ∧ y.mem = x.mem)))

/-- A checkpoint is asked for, begins at its stall point, is copied, verified and committed: then its generation is the newest
of at most two and shows in the registers. Aborted before, or failed, it leaves the generations as they were (R350, R352, R354,
R355, R378). The model's choices: ABORT_CKPT without a checkpoint (log 35). -/
def Sys2Proof.Claims.CheckpointsPassTheirPhases : Prop :=
  ∀ (h : HalfId) (m : Master) (s : State), Served s h m → Calm s → Alone s h →
    let x := s.half h
    x.seq.wait = .none →
    (x.asr.active = true → x.asr.phase = none → x.run.linked = false → OnHalf (.ckptReq h m) h s (fun y =>
      y.asr = { x.asr with phase := some .asked } ∧ y.run = x.run ∧ y.mem = x.mem)) ∧
    (OnHalf (.abortCkpt h m) h s (fun y => y.asr.phase = none ∧ y.asr.gens = x.asr.gens ∧ y.mem = x.mem ∧
      y.rfld Reg.asrCmdStat 8 8 = (if x.asr.phase.isSome then 0x0C else 0x0D))) ∧
    (∀ p, x.run.stall = some p → x.run.state = .running → x.ckptDue = true → x.hbmStall = false → x.capStall = false →
      x.plyStall p.cur.dom = false → x.run.cond = none → x.asr.recur = false → x.run.thrReq = none →
      OnHalf (.scheduledCheckpoint h) h s (fun y => y.asr.phase = some .copying ∧
        y.asr.fresh = some (x.snap x.nextGen) ∧ y.run = x.run ∧ y.mem = x.mem)) ∧
    (∀ g, x.asr.phase = some .copying → x.asr.fresh = some g →
      Answers (.checkpointCopyDone h true) s (fun t => (t.half h).asr.phase = some .verifying ∧
        (t.half h).asr.gens = x.asr.gens ∧
        ∃ r ∈ (t.half h).asr.journal, r.body = .mark g.gen x.asr.gens.isEmpty ∧ r.jseq = (t.half h).asr.jseq) ∧
      OnHalf (.checkpointCopyDone h false) h s (fun y => y.asr.phase = none ∧ y.asr.gens = x.asr.gens ∧
        y.rbit Reg.asrEvt 0 = true ∧ y.eng.evB8 = x.eng.evB8 ++ [271])) ∧
    (∀ g, x.asr.phase = some .verifying → x.asr.fresh = some g →
      Answers (.checkpointCommit h true) s (fun t =>
        (t.half h).asr.gens.head? = some g ∧ (t.half h).asr.gens.length ≤ 2 ∧ (t.half h).asr.fresh = none ∧
        ((t.half h).asr.phase = none ∨ (t.half h).asr.phase = some .asked ∧ (t.half h).rbit Reg.asrEvt 8 = true) ∧
        (t.half h).reg Reg.asrGenNew = BitVec.ofNat 32 g.gen ∧ (t.half h).reg64 Reg.asrGenCycLo Reg.asrGenCycHi = g.cyc.toNat ∧
        (t.half h).eng.evB8 = x.eng.evB8 ++ [270] ∧ (t.half (otherHalf h)).asr.mGens = (t.half h).asr.gens) ∧
      OnHalf (.checkpointCommit h false) h s (fun y => y.asr.phase = none ∧ y.asr.gens = x.asr.gens ∧
        y.rbit Reg.asrEvt 0 = true))

/-- A confirmed record is marked so, and `ASR_JSEQ` shows the greatest confirmed one; a confirmed external edge joins the queue
(R342, R344, R345). The model's choices: CYCLE until the stamp boundary (log 105). -/
def Sys2Proof.Claims.ConfirmedRecordsAreAccepted : Prop :=
  ∀ (h : HalfId) (jseq : BitVec 48) (r : JRec) (s : State), (s.half h).run.mode = .split →
    let x := s.half h
    x.asr.active = true → x.asr.journal.find? (fun r => r.jseq == jseq.toNat && !r.conf) = some r →
    Answers (.journalConfirm h jseq) s (fun t =>
      (∀ q ∈ (t.half h).asr.journal, q.jseq = jseq.toNat → q.conf = true) ∧
      (t.half h).asr.journal.length = x.asr.journal.length ∧
      (t.half h).reg64 Reg.asrJseqLo Reg.asrJseqHi = max jseq.toNat (x.reg64 Reg.asrJseqLo Reg.asrJseqHi) ∧
      (∀ f, r.body = .extEdge f → (t.half h).run.ext = x.run.ext ++ [⟨⟨r.src, f⟩, x.run.steps, some r.jseq⟩]) ∧
      ((∀ f, r.body ≠ .extEdge f) → (t.half h).run = x.run))

/-- A recoverable fault takes the half to RECOVERING with its cause, the newest generation to be restored and REPLAY_END at the
last cycle whose inputs were committed; a readable generation is restored, an unreadable pair ends the run FAULTED with cause 8;
after the replay the run goes on (R360 to R363, R375). The model's choices: the cause after a failed restore (log 32). -/
def Sys2Proof.Claims.RecoveryRestoresAndReplays : Prop :=
  ∀ (h : HalfId) (s : State), Alone s h → (s.half h).run.req = none →
    let x := s.half h
    (∀ c, c ≠ .bridgeData → x.run.hfault = true → x.asr.active = true → x.asr.recur = false → x.run.stall.isSome = true →
      x.run.state = .running → x.run.cond = none → x.asr.replay = none → x.asr.patAgain = false → OnHalf (.recovery h c) h s (fun y =>
        y.run.state = .recovering ∧ y.run.hfault = false ∧ y.asr.st = .recovering ∧
        y.rfld Reg.asrStatus 24 4 = (match c with
          | .dataUncorr => 1
          | .storeUncorr => 2
          | .bridgeData => 3) ∧
        y.asr.rewrite = decide (c = .storeUncorr) ∧ y.asr.restoring = some ((x.asr.gens.head?.map (fun g => g.gen)).getD 0) ∧
        y.reg64 Reg.asrReplayEndLo Reg.asrReplayEndHi = (x.run.cyc - 1#64).toNat ∧ y.run.cyc = x.run.cyc ∧ y.mem = x.mem)) ∧
    (∀ c, c ≠ .bridgeData → x.run.hfault = true → x.asr.active = true → x.asr.recur = false → x.run.stall.isSome = true →
      x.run.state = .running → x.asr.patAgain = true → OnHalf (.recovery h c) h s (fun y =>
        y.run.state = .faulted ∧ y.rfld Reg.asrStatus 24 4 = 1)) ∧
    (x.asr.rewrite = true → x.sys.stwHalt = false → OnHalf (.storeRewriteDone h) h s (fun y =>
      y.asr.rewrite = false ∧ y.run = x.run)) ∧
    (∀ want g a b, x.asr.restoring = some want → x.asr.rewrite = false → x.run.state = .recovering →
      x.pickGen want a b = some g → OnHalf (.restoreDone h a b) h s (fun y =>
        y.run.cyc = g.cyc ∧ y.run.vt = g.vt ∧ y.run.pend = g.pend ∧ y.run.state = .recovering ∧ y.asr.restoring = none)) ∧
    (∀ want, x.asr.restoring = some want → x.asr.rewrite = false → x.run.state = .recovering → x.run.hfault = false →
      OnHalf (.restoreDone h false false) h s (fun y => y.run.state = .faulted ∧ y.rfld Reg.asrStatus 24 4 = 8 ∧
        y.asr.restoring = none)) ∧
    (x.run.state = .recovering → x.asr.restoring = none → x.asr.rewrite = false → x.replaying = false → x.asr.recur = false →
      OnHalf (.replayEnd h) h s (fun y => y.run.state = .running ∧ y.asr.st = .active ∧ y.asr.replay = none ∧
        y.rbit Reg.asrEvt 1 = true ∧ y.run.cyc = x.run.cyc ∧ y.mem = x.mem))

/-- In PAIRED, signatures that compare equal release the cycle and leave the run as it was; where a tile's differ, both
halves recover at that cycle, which the mismatch registers show (R365, R377, R378). The model's choices: a mismatch without
assured operation (log 32). -/
def Sys2Proof.Claims.SignaturesAreCompared : Prop :=
  ∀ (h : HalfId) (n : DWord) (k : DWord) (a b : List Word) (s : State), Calm s → s.paired h = true →
    (s.half h).run.mode = .paired → s.h0.asr.sigs = some (n, a) → s.h1.asr.sigs = some (k, b) → a.length = 64 → b.length = 64 →
    (a = b → Answers (.signatureCompare h) s (fun t => ∀ g, (t.half g).asr.sigs = none ∧
      (t.half g).run.state = (s.half g).run.state ∧ (t.half g).run.cyc = (s.half g).run.cyc)) ∧
    (a ≠ b → (s.half h).asr.active = true → (s.half h).asr.episode ≠ some n →
      Answers (.signatureCompare h) s (fun t => ∀ g, (t.half g).run.state = .recovering ∧
        (t.half g).rbit Reg.asrEvt 2 = true ∧ (t.half g).rfld Reg.asrStatus 24 4 = 4 ∧
        (t.half g).reg64 Reg.asrMismatchCycLo Reg.asrMismatchCycHi = n.toNat ∧
        ∀ i (hi : i < 64) (ha : i < a.length) (hb : i < b.length),
          (t.half g).rbit (if i < 32 then Reg.asrMismatchLo else Reg.asrMismatchHi) (i % 32) = (a[i] != b[i])))

/-- A mismatch that recurs is diagnosed; a diagnosis that names one half retires it, one that names neither or both ends the
run FAULTED with cause 9. Heartbeats are counted, and three in a row end SIDEBAND_LOST; a half lost in a JOINED run ends the
run; the takeover makes the survivor the lead with the copied sequencer and the mirrored engine registers (R194, R366 to
R368, R373). The model's choices: how the loss shows (log 36). -/
def Sys2Proof.Claims.HalvesAreDiagnosedLostAndReplaced : Prop :=
  ∀ (h : HalfId) (s : State), Calm s →
    let x := s.half h
    let o := otherHalf h
    (x.asr.recur = true → Answers (.diagnosis h) s (fun t => (t.half h).asr.st = .diagnosing ∧
      (t.half h).marchBusy = true ∧ (t.half h).run = x.run)) ∧
    (∀ f, x.asr.st = .diagnosing → Answers (.diagnosisDone h f f) s (fun t => (t.half h).run.state = .faulted ∧
      (t.half h).rfld Reg.asrStatus 24 4 = 9)) ∧
    (x.asr.st = .diagnosing → x.inRun = true → Answers (.diagnosisDone h (decide (h = .h0)) (decide (h = .h1))) s (fun t =>
      (t.half h).run.state = .faulted ∧ (∀ g, (t.half g).sawRetired h = true ∧ (t.half g).rbit Reg.asrEvt 3 = true) ∧
      (t.half o).run.state = (s.half o).run.state)) ∧
    OnHalf (.heartbeat h false) h s (fun y => y = { x with asr := { x.asr with beats := x.asr.beats + 1 } }) ∧
    Answers (.heartbeat h true) s (fun t => t.half h = { x with asr := { x.asr with sbBeats := x.asr.sbBeats + 1 } } ∧
      ((s.half o).asr.sbLost = true → (s.half o).asr.sbBack = 2 → (t.half o).asr.sbLost = false) ∧
      ((s.half o).asr.sbLost = true → (s.half o).asr.sbBack < 2 → (t.half o).asr.sbLost = true)) ∧
    Answers (.heartbeatLoss h .sidebandLost) s (fun t => ∀ g, (t.half g).asr.sbLost = true ∧
      (t.half g).rbit Reg.asrEvt 9 = true ∧ (t.half g).run = (s.half g).run) ∧
    (x.asr.sbLost = false → s.paired h = true → x.run.mode = .joined → x.inRun = true →
      Answers (.heartbeatLoss h .halfLost) s (fun t => (t.half h).run.state = .faulted ∧ (t.half o).run.state = .faulted ∧
        (t.half h).rfld Reg.asrStatus 24 4 = 5 ∧ (t.half h).rbit Reg.asrEvt 4 = true)) ∧
    (x.asr.taking = true → sortedFrom 0 x.asr.mRegs = true → Answers (.takeover h) s (fun t =>
      (t.half h).run.lead = true ∧ (t.half o).run.lead = false ∧ (t.half h).seq = x.seqCopy ∧
      (t.half h).rbit Reg.asrEvt 4 = true ∧
      ∀ r, isTxeReg r = true → (t.half h).reg r = sget x.asr.mRegs r (regReset r)))

/-- An export is refused in a run; with a generation to export it is under way, and its end leaves it at XBASE_MIB with its
length, and reports OK. An import is refused outside READY; one that fails its checks changes no run and reports
IMPORT_FAIL, one that passes leaves the half STOPPED (R369 to R371, R378, R380). The model's choices: when DONE and the code
come (log 37), a command that cannot arise changes nothing (log 7). -/
def Sys2Proof.Claims.ExportsAndImportsReportTheirEnd : Prop :=
  ∀ (h : HalfId) (m : Master) (p : Bool) (s : State), Served s h m →
    let x := s.half h
    let ended := fun (y : Half) (code : Nat) => y.asr.cmd = none ∧ y.rfld Reg.asrCmdStat 1 7 = code ∧ y.rbit Reg.asrCmdStat 0 = true
    (x.asr.cmd = none → x.run.state = .running → OnHalf (.asrExport h m p) h s (fun y => ended y 1 ∧ y.mem = x.mem)) ∧
    (x.asr.cmd = none → s.exportRefusal h p = none → OnHalf (.asrExport h m p) h s (fun y =>
      y = { x with asr := { x.asr with cmd := some (1, p) } })) ∧
    (x.asr.cmd.isSome = true → exec (.asrExport h m p) s = .next s ∧ exec (.asrImport h m) s = .next s) ∧
    (x.asr.cmd = none → x.run.state = .ready → OnHalf (.asrImport h m) h s (fun y =>
      y = { x with asr := { x.asr with cmd := some (2, false) } })) ∧
    (x.asr.cmd = none → x.run.state = .stopped → OnHalf (.asrImport h m) h s (fun y => ended y 1 ∧ y.run = x.run)) ∧
    (∀ ps, x.asr.cmd = some (1, p) → s.exportRefusal h p = none → s.exportParts h p = some ps →
      let b := s.exportBytes h ps
      OnHalf (.exportDone h) h s (fun y => ended y 0 ∧ y.rbit Reg.asrEvt 6 = true ∧
        rdBytes y.mem (hbmBase + x.rfld Reg.asrXbase 0 16 * 2 ^ 20) b.length = b ∧ y.run = x.run)) ∧
    (x.asr.cmd = some (2, false) → s.paired h = false →
      (x.readExport.ok x = false → OnHalf (.importDone h) h s (fun y => ended y 0x3A ∧ y.rbit Reg.asrEvt 7 = true ∧
        y.run = x.run ∧ y.mem = x.mem)) ∧
      (x.readExport.ok x = true → x.run.state = .ready → ∀ z, x.import_ x.readExport = some z →
        Answers (.importDone h) s (fun t => ended (t.half h) 0 ∧ (t.half h).run.state = .stopped ∧
          (t.half h).asr.st = .suspended)))

/-! ## The adapter fabric (R381 to R427) -/

/-- A load asked for by the steward holds every column of a whole bitstream and leaves the fabric LOADING; while one is
under way it is refused; other masters' writes have no effect. Its end makes the fabric CONFIGURED with the frames of the
bitstream, or FAILED with the code of the check that failed (R395 to R399, R419, R420). The model's choices: which of
several faults is reported (log 10), the databases supported (log 48). -/
def Sys2Proof.Claims.FabricLoadsHoldCheckAndCommit : Prop :=
  ∀ (h : HalfId) (v : Word) (s : State),
    let x := s.half h
    (x.fabState ≠ 1 → x.fabState ≠ 3 → x.rbit Reg.afbLoadCfg 1 = false → OnHalf (.fabricLoad h .stw v) h s (fun y =>
      y.fabState = 1 ∧ y.fab.outs = 0 ∧ y.fab.live = 0 ∧ y.fab.ffs = 0 ∧ y.fab.load.isSome = true ∧
      y.fab.frames = x.fab.frames ∧ y.mem = x.mem)) ∧
    (x.fabState = 1 ∨ x.fabState = 3 → OnHalf (.fabricLoad h .stw v) h s (fun y =>
      y.rfld Reg.afbStatus 20 8 = 1 ∧ y.fabState = x.fabState ∧ y.fab = x.fab)) ∧
    (∀ m, Served s h m → m ≠ .seq → m ≠ .stw → OnHalf (.fabricLoad h m v) h s (fun y => y.regs = x.regs ∧ y.fab = x.fab)) ∧
    (∀ l : FabLoad, x.fab.load = some l → l.part = false → l.auto = false →
      let lim := if l.flash then 0x200000 else 0xC00000000
      let hd := bsHead (x.fabBytes l.flash l.addr 64)
      (lim < l.addr + 64 → OnHalf (.fabricLoadCommit h) h s (fun y => y.fabState = 5 ∧ y.rfld Reg.afbStatus 20 8 = 0x54 ∧
        y.fab.load = none)) ∧
      (l.addr + 64 ≤ lim → l.addr + hd.size ≤ lim →
        (∀ c, c < 256 → bsCheck x.fab.frames (x.fabBytes l.flash l.addr hd.size) hd false false = .inl c →
          OnHalf (.fabricLoadCommit h) h s (fun y => y.fabState = 5 ∧ y.rfld Reg.afbStatus 20 8 = c ∧ y.fab.load = none ∧
            y.rbit Reg.afbEvt 0 = true)) ∧
        (∀ fr, natBit hd.flags 1 = false →
          bsCheck x.fab.frames (x.fabBytes l.flash l.addr hd.size) hd false false = .inr fr →
          OnHalf (.fabricLoadCommit h) h s (fun y => y.fabState = 2 ∧ y.rfld Reg.afbStatus 20 8 = 0x0B ∧
            y.fab.frames = fr ∧ y.fab.load = none ∧ y.fab.rel = some (0, allCols) ∧ y.rbit Reg.afbEvt 0 = true))))

/-- A CONFIGURED fabric is released in stages: outputs, then write enables, then flip-flops, then ACTIVE. An abort stops a
load with ABORTED, is LATE in CONFIGURED and RELEASING, and REFUSED_STATE where nothing is under way (R396, R398, R400). The
model's choices: LATE and REFUSED_STATE (logs 48, 119). -/
def Sys2Proof.Claims.FabricReleasesAndAborts : Prop :=
  ∀ (h : HalfId) (v : Word) (c : Nat) (s : State),
    let x := s.half h
    (x.fab.rel = some (0, c) → x.fabState = 2 → OnHalf (.fabricRelease h .stw v) h s (fun y =>
      y.fabState = 3 ∧ y.fab = { x.fab with rel := some (1, c) })) ∧
    (x.fab.rel = some (1, c) → OnHalf (.fabricReleaseStage h) h s (fun y =>
      y = { x with fab := { x.fab with outs := x.fab.outs ||| c, rel := some (2, c) } })) ∧
    (x.fab.rel = some (2, c) → OnHalf (.fabricReleaseStage h) h s (fun y =>
      y = { x with fab := { x.fab with live := x.fab.live ||| c, rel := some (3, c) } })) ∧
    (x.fab.rel = some (3, c) → OnHalf (.fabricReleaseStage h) h s (fun y =>
      y = { x with fab := { x.fab with ffs := x.fab.ffs ||| c, gsr := false, rel := some (4, c) } })) ∧
    (x.fab.rel = some (4, c) → OnHalf (.fabricReleaseStage h) h s (fun y =>
      y.fabState = 4 ∧ y.fab = { x.fab with rel := none } ∧ ∀ o, o ≠ Reg.afbStatus → y.reg o = x.reg o)) ∧
    (x.fab.load.isSome = true → OnHalf (.afbAbort h .stw v) h s (fun y => y.fab.load = none ∧
      y.rfld Reg.afbStatus 12 8 = 0x0C ∧ y.rfld Reg.afbStatus 20 8 = 0x0C ∧ y.rbit Reg.afbEvt 1 = true)) ∧
    (x.fab.load = none → OnHalf (.afbAbort h .stw v) h s (fun y => y.fab = x.fab ∧ y.rbit Reg.afbEvt 1 = true ∧
      y.rfld Reg.afbStatus 12 8 = (if x.fabState = 2 ∨ x.fabState = 3 then 0x0D else 0x01)))

/-- Two or more enabled drivers on a long line are all disabled, and recorded; clearing a bit of `AFB_LL_DIS` enables the
line's drivers again. An oscillator that is on locks at 20 to 400 MHz; TRIM takes what released logic writes (R388, R401,
R423). The model's choices: a command that cannot arise changes nothing (log 7). -/
def Sys2Proof.Claims.LongLinesAndOscillators : Prop :=
  ∀ (h : HalfId) (m : Master) (line : BitVec 6) (sites : BitVec 192) (k : BitVec 2) (trim : BitVec 12) (v : Word) (s : State),
    Served s h m →
    let x := s.half h
    let dis := if line.toNat < 32 then Reg.afbLlDisLo else Reg.afbLlDisHi
    (2 ≤ (x.drivers line.toNat sites.toNat).length → OnHalf (.longLineContention h line sites) h s (fun y =>
      (∀ d ∈ x.drivers line.toNat sites.toNat, natBit (sget y.fab.llOff line.toNat 0) d = true) ∧
      y.rbit dis (line.toNat % 32) = true ∧ y.rbit Reg.afbEvt 2 = true ∧
      y.rfld Reg.afbLlCont 16 16 = min (x.rfld Reg.afbLlCont 16 16 + 1) 65535)) ∧
    ((x.drivers line.toNat sites.toNat).length < 2 → exec (.longLineContention h line sites) s = .next s) ∧
    (wbit v (line.toNat % 32) = true → OnHalf (.afbLlDisWrite h m (decide (32 ≤ line.toNat)) v) h s (fun y =>
      sget y.fab.llOff line.toNat 0 = 0 ∧ y.rbit dis (line.toNat % 32) = false ∧ y.mem = x.mem)) ∧
    (wbit v (line.toNat % 32) = false → OnHalf (.afbLlDisWrite h m (decide (32 ≤ line.toNat)) v) h s (fun y =>
      sget y.fab.llOff line.toNat 0 = sget x.fab.llOff line.toNat 0 ∧
      y.rbit dis (line.toNat % 32) = x.rbit dis (line.toNat % 32))) ∧
    (x.rbit (Reg.afbOsc k.toNat) 31 = true → 20000 ≤ x.rfld (Reg.afbOsc k.toNat) 12 19 →
      x.rfld (Reg.afbOsc k.toNat) 12 19 ≤ 400000 → OnHalf (.oscLock h k) h s (fun y =>
        y.rbit Reg.afbStatus (4 + k.toNat) = true ∧ OnlyRegs [Reg.afbStatus] x y)) ∧
    (400000 < x.rfld (Reg.afbOsc k.toNat) 12 19 → exec (.oscLock h k) s = .next s) ∧
    (x.fab.live ≠ 0 → OnHalf (.trimPortWrite h k trim) h s (fun y =>
      y.rfld (Reg.afbOsc k.toNat) 0 12 = trim.toNat ∧ y.rfld (Reg.afbOsc k.toNat) 12 20 = x.rfld (Reg.afbOsc k.toNat) 12 20 ∧
      OnlyRegs [Reg.afbOsc k.toNat] x y))

/-- A flash command starts when none is in progress, and is refused otherwise. An erased word takes what is programmed, an
erasure leaves no word of its 64 KiB sector programmed and every other as it was, a read delivers the word (R402, R426). -/
def Sys2Proof.Claims.FlashCommandsProgramEraseAndRead : Prop :=
  ∀ (h : HalfId) (m : Master) (s : State), Served s h m → m ≠ .afb →
    let x := s.half h
    let w := x.rfld Reg.afbFlAddr 3 18
    let starts := fun (c : Instr) (op : Nat) =>
      (x.rbit Reg.afbFlStat 0 = false → OnHalf c h s (fun y => y.fab = { x.fab with flCmd := some (op, w) } ∧
        y.rbit Reg.afbFlStat 0 = true ∧ y.mem = x.mem)) ∧
      (x.rbit Reg.afbFlStat 0 = true → OnHalf c h s (fun y => y.fab = x.fab ∧ y.rbit Reg.afbFlStat 2 = true))
    starts (.flashProgram h m) 1 ∧ starts (.flashErase h m) 2 ∧ starts (.flashRead h m) 3 ∧
    (∀ w, x.fab.flCmd = some (1, w) → sget x.fab.flash w none = none → OnHalf (.flashCommandDone h) h s (fun y =>
      sget y.fab.flash w none = some (BitVec.ofNat 64 (x.reg64 Reg.afbFlDataLo Reg.afbFlDataHi)) ∧
      (∀ k, k ≠ w → sget y.fab.flash k none = sget x.fab.flash k none) ∧ y.fab.flCmd = none ∧
      y.rbit Reg.afbFlStat 0 = false ∧ y.rbit Reg.afbFlStat 1 = true)) ∧
    (∀ w, x.fab.flCmd = some (2, w) → OnHalf (.flashCommandDone h) h s (fun y =>
      (∀ k, sget y.fab.flash k none = if k / 8192 = w / 8192 then none else sget x.fab.flash k none) ∧ y.fab.flCmd = none ∧
      y.rbit Reg.afbFlStat 0 = false ∧ y.rbit Reg.afbFlStat 1 = true)) ∧
    (∀ w d, x.fab.flCmd = some (3, w) → sget x.fab.flash w none = some d → sget x.fab.flBad w false = false →
      OnHalf (.flashCommandDone h) h s (fun y => y.reg64 Reg.afbFlDataLo Reg.afbFlDataHi = d.toNat ∧
        y.fab = { x.fab with flCmd := none } ∧ y.rbit Reg.afbFlStat 0 = false ∧ y.rbit Reg.afbFlStat 1 = true))

/-- A push joins its channel's queue of 64 slices, and one that does not fit or that no channel takes is counted; an
acknowledge beyond the last frees the slots up to its cycle; a hold that channels alone raised ends once they have room; the
fabric's doorbell answers its code, its request latches a code and raises event 277; logic that is not live does nothing
(R407, R410, R411, R415, R416). The model's choices: what logic does at these ports comes as commands (log 49), a command
that cannot arise changes nothing (log 7). -/
def Sys2Proof.Claims.FabricPortsAct : Prop :=
  ∀ (h : HalfId) (k : BitVec 5) (bits : BitVec 128) (c : BitVec 64) (q : BitVec 6) (tail : BitVec 16) (code : BitVec 8) (s : State),
    let x := s.half h
    let n := k.toNat
    (x.fab.live = 0 → exec (.channelPush h k bits) s = .next s ∧ exec (.fabricAck h c) s = .next s ∧
      exec (.fabricDoorbell h q tail) s = .next s ∧ exec (.fabricRequest h code) s = .next s) ∧
    (x.fab.live ≠ 0 → x.run.mode = .split →
      (x.asr.active = false → x.chEn n = true → x.fabLead = true → (x.chan n).queue.length < 64 →
        OnHalf (.channelPush h k bits) h s (fun y => (y.chan n).queue = (x.chan n).queue ++ [bits.toNat % 2 ^ x.chInCount n] ∧
          (y.chan n).ring = (x.chan n).ring ∧ (∀ i, i ≠ n → y.chan i = x.chan i) ∧
          y = { x with fab := { x.fab with chan := y.fab.chan } })) ∧
      (64 ≤ (x.chan n).queue.length ∨ x.chEn n = false → OnHalf (.channelPush h k bits) h s (fun y => y.fab = x.fab ∧
        y.rfld (Reg.afbChStat n) 0 16 = min (x.rfld (Reg.afbChStat n) 0 16 + 1) 65535 ∧ y.rbit Reg.afbEvt 3 = true)) ∧
      (x.fabLead = true → x.ackTakes c.toNat = true → OnHalf (.fabricAck h c) h s (fun y =>
        y.reg64 Reg.afbAckLo Reg.afbAckHi = c.toNat ∧ (∀ i, i < 32 →
          (y.chan i).ring = (x.chan i).ring.filter (fun e => !decide (e.1.toNat ≤ c.toNat)) ∧
          (y.chan i).queue = (x.chan i).queue) ∧ y.mem = x.mem)) ∧
      (x.ackTakes c.toNat = false → exec (.fabricAck h c) s = .next s) ∧
      (x.qBound q.toNat = true → x.run.loaded ≠ some .paired → Answers (.fabricDoorbell h q tail) s (fun t =>
        (t.half h).out.head? = some (.dbCode q (BitVec.ofNat 4 (x.dbCode q.toNat tail.toNat))) ∧
        (x.dbCode q.toNat tail.toNat = 0 → (t.half h).rfld (Reg.txeSqTail q.toNat) 0 16 = tail.toNat))) ∧
      (Calm s → x.evtAct 277 = 0 → x.evtEn 277 = false → OnHalf (.fabricRequest h code) h s (fun y =>
        y.reg Reg.afbReq = BitVec.ofNat 32 (256 + code.toNat) ∧ y.rbit Reg.afbEvt 5 = true ∧ y.pendFlag 277 = true))) ∧
    (∀ p, x.run.mode = .split → x.run.state = .held → x.run.cond = some p → p.auto = true → x.chansEased = true →
      OnHalf (.outHoldRelease h) h s (fun y => y.run.state = .running ∧ y.run.cond = none ∧ y.fab.full = [] ∧ y.mem = x.mem)) ∧
    (x.run.state ≠ .held → exec (.outHoldRelease h) s = .next s)

/-- The fabric reaches HBM within its window and nothing else: a write there at rest stores its bytes, an address outside HBM is
answered with an error (R404, R405). The model's choices: a command that cannot arise changes nothing (log 7). -/
def Sys2Proof.Claims.FabricReachesItsWindow : Prop :=
  ∀ (h : HalfId) (addr : BitVec 40) (data : Bytes) (s : State),
    let x := s.half h
    (x.fab.live ≠ 0 → regionOf addr.toNat data.length = some .hbm → regionOf addr.toNat 1 = some .hbm → data ≠ [] →
      AtRest x → NoErrors x → Calm s → x.rfld Reg.stwBoot 26 2 = 0 → x.fabReach addr.toNat data.length = true →
      hbmMeets addr.toNat data.length (x.capRanges 4 ++ x.plyRanges 4) = false →
      OnHalf (.fabricHbmAccess h true addr data) h s (fun y =>
        (∀ i (hi : i < data.length), rdByte y.mem (addr.toNat + i) = data[i]) ∧
        (∀ a, a < addr.toNat ∨ addr.toNat + data.length ≤ a → rdByte y.mem a = rdByte x.mem a) ∧
        y = { x with mem := y.mem })) ∧
    (x.fab.live ≠ 0 → addr.toNat < hbmBase → OnHalf (.fabricHbmAccess h true addr data) h s (fun y =>
      y = { x with out := .answer .afb 2#2 [] :: x.out })) ∧
    (x.fab.live = 0 → ∀ w, exec (.fabricHbmAccess h w addr data) s = .next s)

/-- The logic of the fabric follows its configuration. A column of arithmetic cells whose tables hold the exclusive or and the
and of two inputs adds: their SUM outputs spell the sum of the operands and of the column's CIN (R382). A port of a RAM block that
writes alone at an active edge stores its word in the address's bits and changes no other bit; a read alone changes none (R384,
R385). The model's choices: which cells the frames make is open (log 49). -/
def Sys2Proof.Claims.FabricLogicFollowsItsConfiguration : Prop :=
  (∀ (x : Half) (nl : Netlist) (t col : Nat) (as bs : List Sig), as.length = bs.length → as.length ≤ 1024 →
    (∀ (i : Nat) (hi : i < as.length) (hj : i < bs.length), ∃ c, lookup nl.cells (col * 1024 + i) = some c ∧
      c.mode = .arith ∧ c.table = 0x0000000800000006#64 ∧ c.ins = [as[i], bs[i]]) →
    ((List.range as.length).map (fun i => match lookup nl.cells (col * 1024 + i) with
      | some c => bitNat (x.cellOut nl t (col * 1024 + i) c).2.2 * 2 ^ i
      | none => 0)).sum = (x.sigNum t as + x.sigNum t bs + bitNat (natBit nl.cin col)) % 2 ^ as.length) ∧
  (∀ (x : Half) (t n : Nat) (r : RamCfg), r.a.logW ≤ 5 → x.sig t r.a.en = true → natBit x.fab.live (n / 8) = true →
    let w := 2 ^ r.a.logW
    let lo := x.sigNum t r.a.addr % (32768 / w) * w
    let y := x.ramEdge t n r true false
    (x.sig t r.a.we = true → ∀ j, j < 32768 → (y.ramBits n r).getLsbD j =
      (if lo ≤ j ∧ j < lo + w then natBit (x.sigNum t r.a.din) (j - lo) else (x.ramBits n r).getLsbD j)) ∧
    (x.sig t r.a.we = false → y.ramBits n r = x.ramBits n r ∧
      ∀ j, j < w → (sget y.fab.cell.rout (2 * n) none).any (fun v =>
        natBit v.1 j == (x.ramBits n r).getLsbD (lo + j)) = true))

/-! ## Pins (R428 to R456) -/

/-- PIN_DATA_SET sets and PIN_DATA_CLR clears exactly the bits written; a selection register takes a function that exists; a
bank's VIO changes only while no output of the bank is enabled, and its inputs follow their pads once it has settled; a
binding of DPIN is taken outside a run when its bits are free, else DSN_ERR is set (R430, R436, R441, R442, R452). The
model's choices: an out-of-range DSN word is ignored (log 50), a command that cannot arise changes nothing (log 7). -/
def Sys2Proof.Claims.PinRegistersAct : Prop :=
  ∀ (h : HalfId) (m : Master) (hi : Bool) (bank : BitVec 2) (v : Word) (s : State), Served s h m →
    let x := s.half h
    let d := Reg.pinData (bitNat hi)
    OnHalf (.pinDataSet h m hi v) h s (fun y => OnlyRegs [d] x y ∧ y.reg d = x.reg d ||| v) ∧
    OnHalf (.pinDataClr h m hi v) h s (fun y => OnlyRegs [d] x y ∧ y.reg d = x.reg d &&& ~~~v) ∧
    (∀ f, f < 0x300 → outFnOk f = true → OnHalf (.pinFunctionSwitch h m (BitVec.ofNat 16 (0x1000 + 4 * f)) v) h s (fun y =>
      y.reg (Reg.pinOsel f) = v &&& 0x8000003F#32 ∧ (∀ g, g ≠ f → g < 0x300 → y.reg (Reg.pinOsel g) = x.reg (Reg.pinOsel g)) ∧
      y = { x with regs := y.regs })) ∧
    (∀ f, f < 0x300 → outFnOk f = false → exec (.pinFunctionSwitch h m (BitVec.ofNat 16 (0x1000 + 4 * f)) v) s = .next s) ∧
    (v = 0x55#32 → x.rfld Reg.pinBankVio 0 8 = 0 → (∀ p, p < 64 → (x.padDrive p).2 = true) →
      OnHalf (.pinBankVioWrite h m v) h s (fun y => OnlyRegs [Reg.pinBankVio] x y ∧ y.rfld Reg.pinBankVio 0 8 = 0 ∧
        y.rbit Reg.pinBankVio 12 = true)) ∧
    (v = 0x55#32 → x.rfld Reg.pinBankVio 0 8 = 0 → (∀ p, p < 64 → (x.padDrive p).2 = false) → x.reg (Reg.pinPad 0) = 0#32 →
      x.reg (Reg.pinPad 1) = 0#32 → OnHalf (.pinBankVioWrite h m v) h s (fun y => OnlyRegs [Reg.pinBankVio] x y ∧
        y.rfld Reg.pinBankVio 0 8 = 0x55 ∧ y.rfld Reg.pinBankVio 8 4 = 0)) ∧
    OnHalf (.vioSettled h bank) h s (fun y => y.rbit Reg.pinBankVio (8 + bank.toNat) = true ∧
      ∀ i, i < 16 → y.pinBit Reg.pinPad (16 * bank.toNat + i) = x.pins.pad.getLsbD (16 * bank.toNat + i)) ∧
    (x.inRun = true → exec (.pinDsnInWrite h m v) s = .next s) ∧
    (x.inRun = false → (wbit v 31 = false ∨ (s.dsnOk h v 64 = true ∧
        ∀ b ∈ dsnKeys v 64, b ∉ x.inputsHeld ++ x.dsnBits Reg.ptmDsn 96)) →
      OnHalf (.pinDsnInWrite h m v) h s (fun y => OnlyRegs [Reg.pinDsnIn] x y ∧ y.reg Reg.pinDsnIn = v &&& 0xBFFF007F#32)) ∧
    (x.inRun = false → wbit v 31 = true → s.dsnOk h v 64 = false → OnHalf (.pinDsnInWrite h m v) h s (fun y =>
      OnlyRegs [Reg.pinDsnStat] x y ∧ y.rbit Reg.pinDsnStat 0 = true))

/-- A change at a pad of a settled bank reaches the pin's synchronised level; after its debounce the debounced level, which
raises the pin's interrupt bit on the edges its mode names (R430, R433, R446, R447). The model's choices: the level at a pad
comes with its pull (log 123). -/
def Sys2Proof.Claims.PinInputsAreSynchronisedAndDebounced : Prop :=
  ∀ (h : HalfId) (pin : BitVec 6) (level : Bool) (s : State),
    let x := s.half h
    let p := pin.toNat
    x.sys.fallow = none →
    (x.rbit Reg.pinBankVio (8 + p / 16) = true → OnHalf (.pinInputChange h pin level) h s (fun y =>
      y.pins.pad.getLsbD p = level ∧ y.pinBit Reg.pinPad p = level ∧
      (∀ i, i < 64 → i ≠ p → y.pins.pad.getLsbD i = x.pins.pad.getLsbD i ∧ y.pinBit Reg.pinPad i = x.pinBit Reg.pinPad i) ∧
      y.mem = x.mem)) ∧
    OnHalf (.debounceChange h pin) h s (fun y => y.pinBit Reg.pinDeb p = x.pinBit Reg.pinPad p ∧
      (∀ i, i < 64 → i ≠ p → y.pinBit Reg.pinDeb i = x.pinBit Reg.pinDeb i) ∧
      (x.pinBit Reg.pinDeb p = false → x.pinBit Reg.pinPad p = true → x.rfld (Reg.pinCfg p) 16 4 = 1 →
        y.pinBit Reg.pinIrqStat p = true) ∧ y.mem = x.mem)

/-! ## Lanes and quads (R457 to R472) -/

/-- A lane is enabled when the rate of its PLL suits its PCS and that PLL is locked, with its counters cleared, else CFG_ERR is
set and nothing changes; it locks, aligns and loses lock, which raises its event; a rate that is in use is not changed, and one
that changes takes the lock away (R458, R459, R468 to R472). The model's choices: a refused quad write (log 54). -/
def Obligations.LanesAndQuadsLockAndLose : Prop :=
  ∀ (h : HalfId) (m : Master) (l : BitVec 6) (q : BitVec 4) (v : Word) (s : State), Served s h m → l.toNat < 48 → q.toNat < 12 →
    let x := s.half h
    let st := Reg.lnkLaneStat l.toNat
    let qd := Reg.lnkQuad q.toNat
    (wbit v 31 = true → x.rbit (Reg.lnkLaneCfg l.toNat) 31 = false → x.laneInBundle l.toNat = false → fld v 28 2 ≠ 3 →
      tapsOver v = false →
      (pcsOk (x.lanePll l.toNat v).1 (fld v 28 2) = true → (x.lanePll l.toNat v).2 = true →
        OnHalf (.laneEnable h m l v) h s (fun y => y.reg (Reg.lnkLaneCfg l.toNat) = v &&& 0xFFEFFFE0#32 ∧
          y.rbit st 7 = false ∧ y.rbit st 6 = false ∧ y.reg (Reg.lnkLaneErr l.toNat) = 0#32 ∧
          y.reg (Reg.lnkLaneFec l.toNat) = 0#32 ∧
          OnlyRegs [Reg.lnkLaneCfg l.toNat, st, Reg.lnkLaneErr l.toNat, Reg.lnkLaneFec l.toNat] x y)) ∧
      ((x.lanePll l.toNat v).2 = false → OnHalf (.laneEnable h m l v) h s (fun y => y.rbit st 4 = true ∧ OnlyRegs [st] x y))) ∧
    (x.laneOn l.toNat = true → OnHalf (.cdrLock h l) h s (fun y => y.rbit st 7 = true ∧
      (x.laneRaw l.toNat = true → y.rbit st 6 = true) ∧ OnlyRegs [st] x y)) ∧
    (x.rbit st 7 = true → OnHalf (.laneSync h l) h s (fun y => y.rbit st 6 = true ∧ OnlyRegs [st] x y)) ∧
    (x.rbit st 7 = true → OnHalf (.laneLoss h l true) h s (fun y => y.rbit st 7 = false ∧ y.rbit st 6 = false ∧
      y.rbit st 3 = true ∧ y.rbit (if l.toNat < 32 then Reg.lnkLaneEvtLo else Reg.lnkLaneEvtHi) (l.toNat % 32) = true ∧
      ∀ o, o ∉ [st, Reg.lnkLaneEvtLo, Reg.lnkLaneEvtHi] → y.reg o = x.reg o)) ∧
    (x.rfld qd 0 4 ≠ fld v 0 4 → fld v 0 4 < 10 → fld v 4 4 = x.rfld qd 4 4 → wbit v 29 = false →
      (x.pllUsed q.toNat false = false → OnHalf (.quadRateWrite h m q v) h s (fun y => y.rfld qd 0 4 = fld v 0 4 ∧
        y.rbit qd 30 = false ∧ y.rbit qd 31 = x.rbit qd 31 ∧ OnlyRegs [qd] x y)) ∧
      (x.pllUsed q.toNat false = true → OnHalf (.quadRateWrite h m q v) h s (fun y => y.rfld qd 0 4 = x.rfld qd 0 4 ∧
        y.rbit qd 29 = true ∧ OnlyRegs [qd] x y))) ∧
    (∀ b, x.rfld qd (if b then 4 else 0) 4 ≠ 0 → OnHalf (.pllLock h q b) h s (fun y =>
      y.rbit qd (if b then 31 else 30) = true ∧ OnlyRegs [qd] x y))

/-! ## The host endpoint and the management Ethernet port (R473 to R486) -/

/-- A request of the host through BAR2 writes and reads HBM; an offset that no BAR maps is an unsupported request, and while
HOST_EN is 0 a register request too; the MSI-X table takes and gives its words; nothing is answered while the link is down
(R474 to R479). The model's choices: no answer while the link is down (log 43), a command that cannot arise changes nothing
(log 7). -/
def Obligations.HostRequestsReachTheirHalf : Prop :=
  ∀ (h : HalfId) (bar : BitVec 3) (off : BitVec 40) (len : Nat) (data : Bytes) (v : Word) (s : State),
    let x := s.half h
    let up := x.rbit Reg.pciStatus 0 = true ∧ x.rbit Reg.pciStatus 1 = false ∧ x.coreHeld = false
    let a := hbmBase + off.toNat
    (x.rbit Reg.pciStatus 0 = false → ∀ w, exec (.hostRequest h bar off w len data) s = .next s) ∧
    (up → x.rbit Reg.pciCtrl 0 = true → x.sys.fallow = none → AtRest x → NoErrors x → Calm s → x.rfld Reg.stwBoot 26 2 = 0 →
      (regionOf a data.length = some .hbm → data ≠ [] → off.toNat + data.length ≤ 2 ^ 36 →
        hbmMeets a data.length (x.capRanges 4 ++ x.plyRanges 4) = false →
        OnHalf (.hostRequest h 2#3 off true len data) h s (fun y =>
          (∀ i (hi : i < data.length), rdByte y.mem (a + i) = data[i]) ∧
          (∀ b, b < a ∨ a + data.length ≤ b → rdByte y.mem b = rdByte x.mem b) ∧ y = { x with mem := y.mem })) ∧
      (regionOf a len = some .hbm → 0 < len → off.toNat + len ≤ 2 ^ 36 →
        OnHalf (.hostRequest h 2#3 off false len data) h s (fun y =>
          y = { x with out := .completion 0#2 (rdBytes x.mem a len) :: x.out }))) ∧
    (up → bar ≠ 0#3 → bar ≠ 2#3 → bar ≠ 4#3 → OnHalf (.hostRequest h bar off true len data) h s (fun y =>
        y = { x with pci := { x.pci with aerUr := true } }) ∧
      OnHalf (.hostRequest h bar off false len data) h s (fun y => y = { x with out := .completion 1#2 [] :: x.out })) ∧
    (up → x.rbit Reg.pciCtrl 0 = false → off.toNat + len ≤ 2 ^ 32 → OnHalf (.hostRequest h 0#3 off false len data) h s (fun y =>
      y = { x with out := .completion 1#2 [] :: x.out })) ∧
    (∀ i, i < 1024 → up → OnHalf (.hostRequest h 4#3 (BitVec.ofNat 40 (0x80000 + 4 * i)) true len (leBytes 4 v.toNat)) h s (fun y =>
        y.mxWord i = v ∧ (∀ j, j ≠ i → y.mxWord j = x.mxWord j) ∧ y = { x with pci := { x.pci with mxTab := y.pci.mxTab } }) ∧
      OnHalf (.hostRequest h 4#3 (BitVec.ofNat 40 (0x80000 + 4 * i)) false 4 data) h s (fun y =>
        y = { x with out := .completion 0#2 (leBytes 4 (x.mxWord i).toNat) :: x.out }))

/-- The link's state follows the link; a write held while it is down is issued once it is up and the function is bus master;
configuration is read, or leaves its bits; a pending message is sent once when its masks are clear (R476, R478, R479, R482).
The model's choices: writes wait for Bus Master Enable too (log 55), the layout of configuration reads (log 124), a command
that cannot arise changes nothing (log 7). -/
def Obligations.LinkConfigurationAndMessages : Prop :=
  ∀ (h : HalfId) (speed width : BitVec 4) (c : CfgReq) (vec : BitVec 8) (s : State),
    let x := s.half h
    OnHalf (.linkDown h) h s (fun y => y.rbit Reg.pciStatus 0 = false ∧ y.pci = { x.pci with down := true } ∧
      (x.rbit Reg.pciStatus 0 = true → y.rbit Reg.pciEvt 0 = true) ∧
      (∀ o, o ∉ [Reg.pciStatus, Reg.pciEvt] → y.reg o = x.reg o) ∧ y = { x with regs := y.regs, pci := y.pci }) ∧
    (x.coreHeld = true → exec (.linkUp h speed width) s = .next s ∧ exec (.configurationRequest h c) s = .next s) ∧
    (x.coreHeld = false → x.pci.held = [] →
      OnHalf (.linkUp h speed width) h s (fun y => y.rbit Reg.pciStatus 0 = true ∧ y.rfld Reg.pciStatus 28 4 = speed.toNat ∧
        y.rfld Reg.pciStatus 24 4 = width.toNat ∧ (x.rbit Reg.pciStatus 0 = false → y.rbit Reg.pciEvt 1 = true) ∧
        y = { x with regs := y.regs, pci := y.pci }) ∧
      (∀ k, c.read = some k → OnHalf (.configurationRequest h c) h s (fun y => y.regs = x.regs ∧ y.pci = x.pci ∧ y.mem = x.mem ∧
        ∃ w, y.out = .config w :: x.out ∧ (k = 0#10 → w = 0x4D321F5B#32) ∧
          (k = 2#10 → w = BitVec.ofNat 32 (0x12000000 + x.rfld Reg.nocParam0 0 8)) ∧
          (k = 1#10 → w.getLsbD 2 = x.rbit Reg.pciStatus 3))) ∧
      (c.read = none → x.pci.mxPend = [] → OnHalf (.configurationRequest h c) h s (fun y =>
        y.rbit Reg.pciStatus 3 = c.busMaster ∧ y.rbit Reg.pciStatus 2 = c.msixOn ∧ y.rbit Reg.pciStatus 1 = c.d3hot ∧ y.pci.funcMask = c.funcMask ∧
        (c.d3hot = true → y.pci.down = true) ∧
        OnlyRegs [Reg.pciStatus] { x with pci := y.pci } y))) ∧
    (∀ a bs, x.coreHeld = false → x.pci.held = [(a, bs, none)] → a < 2 ^ 64 → x.busMaster = true → x.rbit Reg.pciStatus 1 = false →
      OnHalf (.linkUp h speed width) h s (fun y => y.pci.held = [] ∧ y.pci.down = false ∧
        y.out = .hostWrite (BitVec.ofNat 64 a) bs :: x.out ∧ y.mem = x.mem)) ∧
    (sget x.pci.mxPend vec.toNat false = true → x.pci.funcMask = false → wbit (x.mxWord (4 * vec.toNat + 3)) 0 = false →
      x.busMaster = true → x.rbit Reg.pciStatus 2 = true → x.pci.down = false → OnHalf (.msixUnmask h vec) h s (fun y =>
        sget y.pci.mxPend vec.toNat false = false ∧ y.out = .msix vec
          (BitVec.ofNat 64 ((x.mxWord (4 * vec.toNat)).toNat + (x.mxWord (4 * vec.toNat + 1)).toNat * 2 ^ 32))
          (x.mxWord (4 * vec.toNat + 2)) :: x.out ∧
        y = { x with out := y.out, pci := { x.pci with mxPend := y.pci.mxPend } })) ∧
    (sget x.pci.mxPend vec.toNat false = false ∨ wbit (x.mxWord (4 * vec.toNat + 3)) 0 = true →
      exec (.msixUnmask h vec) s = .next s)

/-- An enabled port counts a damaged frame, writes the record of one that its filter admits to the receive ring and moves
RX_WPTR, and discards one that does not fit; it sends a frame of the time block before a waiting frame of the transmit ring,
which it pads to 60 bytes; its configuration is taken as a whole only while it is disabled; LINK is block lock without a
high error rate (R484 to R486). The model's choices: byte orders of addresses and records (log 56), a command that cannot
arise changes nothing (log 7). -/
def Obligations.EthernetFramesComeAndGo : Prop :=
  ∀ (h : HalfId) (m : Master) (f : EthFrame) (v : Word) (lock ber : Bool) (s : State),
    let x := s.half h
    let on := x.rbit Reg.lnkMeCfg 31 = true ∧ x.sys.fallow = none
    let good := f.fcsOk = true ∧ 60 ≤ f.bytes.length ∧ f.bytes.length ≤ 9212
    let base := spAddr 6 + x.rfld Reg.lnkMeRxBase 0 20
    let size := x.rfld Reg.lnkMeRxSize 0 20
    let w := x.rfld Reg.lnkMeRxWptr 0 20
    let r := x.rfld Reg.lnkMeRxRptr 0 20
    let record := rxRecord f.bytes false (adjusted f.stamp x.rxAdj)
    (x.rbit Reg.lnkMeCfg 31 = false → exec (.ethFrameReceive h f) s = .next s ∧ exec (.ethFrameTransmit h) s = .next s) ∧
    (on → f.fcsOk = false → OnHalf (.ethFrameReceive h f) h s (fun y => OnlyRegs [Reg.lnkMeCnt0] x y ∧
      y.rfld Reg.lnkMeCnt0 0 16 = min (x.rfld Reg.lnkMeCnt0 0 16 + 1) 65535)) ∧
    (on → good → isPause f.bytes = false → ptpAt f.bytes = none → x.admits f.bytes = false →
      OnHalf (.ethFrameReceive h f) h s (fun y => OnlyRegs [Reg.lnkMeCnt1] x y ∧
        y.rfld Reg.lnkMeCnt1 0 16 = min (x.rfld Reg.lnkMeCnt1 0 16 + 1) 65535)) ∧
    (on → good → isPause f.bytes = false → ptpAt f.bytes = none → x.admits f.bytes = true → w + record.length ≤ size → r ≤ w →
      w - r + record.length < size → OnHalf (.ethFrameReceive h f) h s (fun y =>
        (∀ i (hi : i < record.length), rdByte y.mem (base + w + i) = record[i]) ∧
        (∀ a, a < base + w ∨ base + w + record.length ≤ a → rdByte y.mem a = rdByte x.mem a) ∧
        y.rfld Reg.lnkMeRxWptr 0 20 = (w + record.length) % size ∧ ∀ o, o ≠ Reg.lnkMeRxWptr → y.reg o = x.reg o)) ∧
    (on → good → isPause f.bytes = false → ptpAt f.bytes = none → x.admits f.bytes = true → w + record.length ≤ size → r ≤ w →
      size ≤ w - r + record.length → OnHalf (.ethFrameReceive h f) h s (fun y => OnlyRegs [Reg.lnkMeCnt0] x y ∧
        y.rfld Reg.lnkMeCnt0 16 16 = min (x.rfld Reg.lnkMeCnt0 16 16 + 1) 65535)) ∧
    (∀ g d q, on → x.sys.frames = (g, d) :: q → OnHalf (.ethFrameTransmit h) h s (fun y =>
      y.sys = { x.sys with frames := q } ∧ y.regs = x.regs ∧ y.mem = x.mem ∧ ∃ bs, y.out = .frame bs :: x.out)) ∧
    (on → x.sys.frames = [] →
      let t := x.rfld Reg.lnkMeTxRptr 0 20
      let at_ := spAddr 6 + x.rfld Reg.lnkMeTxBase 0 20 + t
      let n := x.rdMem at_ 2
      (t = x.rfld Reg.lnkMeTxWptr 0 20 → exec (.ethFrameTransmit h) s = .next s) ∧
      (t ≠ x.rfld Reg.lnkMeTxWptr 0 20 → x.rdMem (at_ + 2) 2 = 0 → n ≤ 9212 → OnHalf (.ethFrameTransmit h) h s (fun y =>
        y.out = .frame (rdBytes x.mem (at_ + 8) n ++ zeros (60 - n)) :: x.out ∧
        OnlyRegs [Reg.lnkMeTxRptr] { x with out := y.out } y ∧
        y.rfld Reg.lnkMeTxRptr 0 20 = (t + 8 + (n + 7) / 8 * 8) % max 1 (x.rfld Reg.lnkMeTxSize 0 20)))) ∧
    (Served s h m → x.rbit Reg.lnkMeCfg 31 = false → OnHalf (.lnkMeCfgWrite h m v) h s (fun y =>
      y.reg Reg.lnkMeCfg = v &&& 0xFE000000#32 ∧ (wbit v 31 = true → y.reg Reg.lnkMeRxWptr = 0#32 ∧ y.reg Reg.lnkMeTxRptr = 0#32) ∧
      y = { x with regs := y.regs })) ∧
    (Served s h m → x.rbit Reg.lnkMeCfg 31 = true → (v ^^^ x.reg Reg.lnkMeCfg) &&& 0x7E000000#32 ≠ 0#32 →
      exec (.lnkMeCfgWrite h m v) s = .next s) ∧
    OnHalf (.linkChg h lock ber) h s (fun y => y.rbit Reg.lnkMeStat 0 = (lock && !ber) ∧ y.rbit Reg.lnkMeStat 1 = ber ∧
      (x.rbit Reg.lnkMeStat 0 ≠ (lock && !ber) → y.rbit Reg.lnkMeStat 2 = true) ∧
      (∀ o, o ≠ Reg.lnkMeStat → y.reg o = x.reg o) ∧ y.mem = x.mem)

/-! ## Network time (R487 to R513) -/

/-- A read of `PTM_TIME_SEC_LO` latches the whole clock; SET_TIME sets it while SERVO_EN is 0 and clears STEPPED, else it
raises an event; SERVO_RESET puts the servos in LISTEN; a read of a stamp queue's ID takes its oldest entry (R489, R495,
R506, R509, R512). The model's choices: SET_TIME acts before the other bits of its write (log 53). -/
def Obligations.TheClockIsReadSetAndItsStampsTaken : Prop :=
  ∀ (h : HalfId) (m : Master) (v : Word) (k : BitVec 1) (s : State), Served s h m →
    let x := s.half h
    let shows := fun (y : Half) (r : Nat → Nat) (t : PtpTime) => y.reg (r 0) = t.sec.setWidth 32 ∧
      y.reg (r 1) = (t.sec >>> 32).setWidth 32 ∧ y.reg (r 2) = t.ns ∧ y.reg (r 3) = t.frac.setWidth 32
    OnHalf (.ptmTimeSecLoRead h m) h s (fun y => shows y Reg.ptmTime (ptpOf x.ptm.time) ∧
      (m ≠ .host → y.out = .answer m 0#2 (leBytes 4 ((ptpOf x.ptm.time).sec.toNat % 2 ^ 32)) :: x.out) ∧
      OnlyRegs [Reg.ptmTime 0, Reg.ptmTime 1, Reg.ptmTime 2, Reg.ptmTime 3] { x with out := y.out } y) ∧
    (x.rbit Reg.ptmCtrl 0 = false → v &&& 0x81#32 = 0#32 → OnHalf (.setTime h m v) h s (fun y =>
      y.ptm.time = ptpUnits ⟨BitVec.ofNat 48 (x.reg64 (Reg.ptmSet 0) (Reg.ptmSet 1)), x.reg (Reg.ptmSet 2),
        (x.reg (Reg.ptmSet 3)).setWidth 16⟩ % phcMod ∧ y.ptm.rem = 0 ∧ y.rbit Reg.ptmStatus 1 = false ∧
      y.reg Reg.ptmCtrl = v &&& 0xFFFF0031#32 ∧ y.mem = x.mem)) ∧
    (x.rbit Reg.ptmCtrl 0 = true → v &&& 0x81#32 = 1#32 → OnHalf (.setTime h m v) h s (fun y =>
      y.ptm.time = x.ptm.time ∧ y.rbit Reg.ptmEvt 7 = true ∧ y.reg Reg.ptmCtrl = v &&& 0xFFFF0031#32)) ∧
    (wbit v 6 = false → OnHalf (.servoReset h m v) h s (fun y => y.rbit Reg.ptmStatus 1 = false ∧ y.ptm.time = x.ptm.time ∧
      ∀ d, d < 2 → (y.pdom d).st = (if wbit v 0 = true ∧ x.rbit (Reg.ptmDomCfg d) 31 = true then 1 else 0) ∧
        (y.pdom d).master = none)) ∧
    (∀ typ seq t q, x.ptm.txts = (typ, seq, t) :: q → OnHalf (.ptmTxtsIdRead h m) h s (fun y =>
      y.ptm = { x.ptm with txts := q } ∧ shows y Reg.ptmTxts t ∧
      y.reg Reg.ptmTxtsId = BitVec.ofNat 32 (2 ^ 31 + typ % 16 * 2 ^ 16 + seq % 2 ^ 16) ∧ y.mem = x.mem)) ∧
    (x.ptm.txts = [] → OnHalf (.ptmTxtsIdRead h m) h s (fun y => y.ptm = x.ptm ∧ y.rbit Reg.ptmTxtsId 31 = false)) ∧
    (∀ t rise q, sget x.ptm.tcap k.toNat [] = (t, rise) :: q → OnHalf (.ptmTcapIdRead h m k) h s (fun y =>
      sget y.ptm.tcap k.toNat [] = q ∧ shows y (Reg.ptmTcap k.toNat) t ∧
      y.reg (Reg.ptmTcapId k.toNat) = BitVec.ofNat 32 (2 ^ 31 + bitNat rise * 2 ^ 16 + q.length) ∧ y.mem = x.mem)) ∧
    (sget x.ptm.tcap k.toNat [] = [] → OnHalf (.ptmTcapIdRead h m k) h s (fun y => y.ptm = x.ptm ∧
      y.rbit (Reg.ptmTcapId k.toNat) 31 = false))

/-- ARM takes a schedule that lies far enough ahead, else sets its code alone; an armed output rises and falls when its time
has come and is DONE after its last fall; DISARM acts at once between pulses, else after the fall; a binding of time to the
design is taken outside a run when its bits are free (R504, R505, R507, R511). The model's choices: an output passed over by
a clock step (log 125), a command that cannot arise changes nothing (log 7). -/
def Obligations.PulseOutputsFollowTheirSchedule : Prop :=
  ∀ (h : HalfId) (m : Master) (k : BitVec 2) (v : Word) (s : State), Served s h m →
    let x := s.half h
    let n := k.toNat
    let st := Reg.ptmTpoStat n
    let start := x.reg64 (Reg.ptmTpoSecLo n) (Reg.ptmTpoSecHi n) * 1000000000 + (x.reg (Reg.ptmTpoNs n)).toNat
    let sound := 4 ≤ x.tpoWidth n ∧ (x.tpoPeriod n = 0 ∨ (8 ≤ x.tpoPeriod n ∧ x.tpoWidth n + 4 ≤ x.tpoPeriod n)) ∧
      (x.reg (Reg.ptmTpoNs n)).toNat ≤ 999999999
    (x.tpoArmed n = false → sound → x.ptm.time + 1000 * 2 ^ 32 ≤ start * 2 ^ 32 → OnHalf (.tpoArm h m k v) h s (fun y =>
      y.rfld st 28 4 = 1 ∧ y.rfld st 24 4 = 0 ∧ y.tpo n = ⟨start, 0, false, false⟩ ∧
      (∀ j, j ≠ n → y.tpo j = x.tpo j) ∧ y.rbit (Reg.ptmTpoCtrl n) 29 = wbit v 29 ∧
      OnlyRegs [st, Reg.ptmTpoCtrl n] { x with ptm := y.ptm } y)) ∧
    (x.tpoArmed n = false → sound → start * 2 ^ 32 < x.ptm.time + 1000 * 2 ^ 32 → OnHalf (.tpoArm h m k v) h s (fun y =>
      y.rfld st 24 4 = 1 ∧ OnlyRegs [st] x y)) ∧
    (x.tpoArmed n = false → ¬ sound → OnHalf (.tpoArm h m k v) h s (fun y => y.rfld st 24 4 = 2 ∧ OnlyRegs [st] x y)) ∧
    (x.tpoArmed n = false → exec (.disarm h m k) s = .next s ∧ exec (.tpoEdge h k) s = .next s) ∧
    (x.tpoArmed n = true → (x.tpo n).high = false → OnHalf (.disarm h m k) h s (fun y =>
      y.rfld st 28 4 = 3 ∧ y.rfld st 24 4 = 3 ∧ OnlyRegs [st] x y)) ∧
    (x.tpoArmed n = true → (x.tpo n).high = true → OnHalf (.disarm h m k) h s (fun y =>
      y.tpo n = { x.tpo n with disarm := true } ∧ y = { x with ptm := y.ptm })) ∧
    (x.tpoArmed n = true → x.ptm.time < x.tpoNext n * 2 ^ 32 → exec (.tpoEdge h k) s = .next s) ∧
    (x.sys.fallow = none → x.tpoArmed n = true → x.tpoNext n * 2 ^ 32 ≤ x.ptm.time → (x.tpo n).high = false →
      OnHalf (.tpoEdge h k) h s (fun y => y.tpo n = { x.tpo n with n := (x.tpo n).n + 1, high := true } ∧ y.rfld st 28 4 = 2 ∧
        OnlyRegs [st] { x with ptm := y.ptm } y)) ∧
    (x.sys.fallow = none → x.tpoArmed n = true → x.tpoNext n * 2 ^ 32 ≤ x.ptm.time → (x.tpo n).high = true →
      OnHalf (.tpoEdge h k) h s (fun y => (y.tpo n).high = false ∧ (y.tpo n).n = (x.tpo n).n ∧ y.mem = x.mem ∧
        (x.tpoCount n = some (x.tpo n).n → y.rfld st 28 4 = 3 ∧ y.rfld st 24 4 = 0 ∧ y.rbit Reg.ptmEvt 3 = true) ∧
        (x.tpoCount n ≠ some (x.tpo n).n → (x.tpo n).disarm = true → y.rfld st 28 4 = 3 ∧ y.rfld st 24 4 = 3) ∧
        (x.tpoCount n ≠ some (x.tpo n).n → (x.tpo n).disarm = false → y.regs = x.regs))) ∧
    (x.inRun = true → exec (.ptmDsnWrite h m v) s = .next s) ∧
    (x.inRun = false → (wbit v 31 = false ∨ (s.dsnOk h v 96 = true ∧
        ∀ b ∈ dsnKeys v 96, b ∉ x.inputsHeld ++ x.dsnBits Reg.pinDsnIn 64)) →
      OnHalf (.ptmDsnWrite h m v) h s (fun y => OnlyRegs [Reg.ptmDsn] x y ∧ y.reg Reg.ptmDsn = v &&& 0xBFFF007F#32)) ∧
    (x.inRun = false → wbit v 31 = true → s.dsnOk h v 96 = false → OnHalf (.ptmDsnWrite h m v) h s (fun y =>
      OnlyRegs [Reg.ptmDsnStat] x y ∧ y.rbit Reg.ptmDsnStat 0 = true))

/-- A domain in LISTEN takes the sender of an Announce for its master; a two-step Sync awaits its Follow_Up, which supplies
its time, and one that finds a path delay makes a sample, whose first steps the clock; a Delay_Resp gives the path delay; a
Delay_Req waits for the port; a domain without its master returns to LISTEN; with no valid domain the servo holds over, and
SYNCED falls at its end; B yields to A (R491 to R501). The model's choices: corners of the servo (log 53), a command that
cannot arise changes nothing (log 7). -/
def Obligations.DomainsFollowTheirMaster : Prop :=
  ∀ (h : HalfId) (msg : PtpMsg) (utc : BitVec 16) (cls steps : BitVec 8) (t1 t2 : PtpTime) (corr logMin : Int) (domB : Bool)
    (s : State),
    let x := s.half h
    let d := bitNat domB
    let p := x.pdom d
    let ours := x.sys.fallow = none ∧ x.matched msg (-7) = some d ∧ p.master = some (msg.clockId, msg.portNumber)
    let only := fun (y : Half) (q : PtpDom) => y.pdom d = q ∧ y.pdom (1 - d) = x.pdom (1 - d) ∧
      y = { x with ptm := { x.ptm with dom := y.ptm.dom } }
    (x.sys.fallow = none → x.matched msg (-3) = some d → p.st ≠ 0 → p.master = none → x.rbit (Reg.ptmDomCfg d) 30 = false →
      OnHalf (.announce h msg utc cls steps) h s (fun y =>
        y.pdom d = { p with st := 2, master := some (msg.clockId, msg.portNumber) } ∧ y.pdom (1 - d) = x.pdom (1 - d) ∧
        y.reg64 (Reg.ptmDomCur d 0) (Reg.ptmDomCur d 1) = msg.clockId.toNat ∧
        y.reg (Reg.ptmDomInfo d) = BitVec.ofNat 32 (utc.toNat * 65536 + cls.toNat * 256 + steps.toNat) ∧
        y.ptm.time = x.ptm.time ∧ y.mem = x.mem)) ∧
    (ours → OnHalf (.sync h msg true t1 corr t2) h s (fun y =>
      only y { p with sync := some (msg.sequenceId, ptpInt t2 + x.rxAdj), logSync := msg.logInterval })) ∧
    (ours → p.delay = none → OnHalf (.sync h msg false t1 corr t2) h s (fun y =>
      only y { p with sync := none, last := some (ptpInt t1 + corr, ptpInt t2 + x.rxAdj), logSync := msg.logInterval })) ∧
    (∀ dly, ours → p.delay = some dly → x.stepped = false → x.candidate d = true →
      OnHalf (.sync h msg false t1 corr t2) h s (fun y =>
        let o := 2 * (ptpInt t2 + x.rxAdj - (ptpInt t1 + corr)) - dly
        y.ptm.time = ((x.ptm.time - o * 2 ^ 15) % (phcMod : Int)).toNat ∧ (y.pdom d).st = 3 ∧ y.rfld Reg.ptmStatus 0 2 = 2 + d ∧
        y.reg Reg.ptmRate = x.reg Reg.ptmNominal ∧ y.rbit Reg.ptmEvt 0 = true ∧ y.mem = x.mem)) ∧
    (∀ t, ours → p.delay = none → p.sync = some (msg.sequenceId, t) → OnHalf (.followUp h msg t1 corr) h s (fun y =>
      only y { p with sync := none, last := some (ptpInt t1 + corr, t) })) ∧
    (ours → p.sync = none → exec (.followUp h msg t1 corr) s = .next s) ∧
    (∀ t3 u1 u2, ours → -7 ≤ logMin → logMin ≤ 4 → p.req = some (msg.sequenceId, t3) → p.last = some (u1, u2) → p.st ≠ 2 →
      OnHalf (.delayResp h msg logMin t1 corr) h s (fun y =>
        y.pdom d = { p with req := none, delay := some ((u2 - u1) + (ptpInt t1 - t3) - corr), fresh := true } ∧
        y.pdom (1 - d) = x.pdom (1 - d) ∧ y.ptm.time = x.ptm.time ∧ y.mem = x.mem)) ∧
    (x.sys.fallow = none → p.master.isSome = true → OnHalf (.delayReq h domB) h s (fun y =>
      y.pdom d = { p with req := none, seqId := p.seqId + 1#16 } ∧
      y.sys = { x.sys with frames := x.sys.frames ++ [(x.delayReqFrame d p.seqId, d)] } ∧ y.regs = x.regs ∧ y.mem = x.mem)) ∧
    (p.master.isSome = true → OnHalf (.masterTimeout h domB) h s (fun y => (y.pdom d).st = 1 ∧ (y.pdom d).master = none ∧
      y.pdom (1 - d) = x.pdom (1 - d) ∧ y.ptm.time = x.ptm.time ∧ y.mem = x.mem)) ∧
    OnHalf (.domainNotValid h domB) h s (fun y => y.pdom d = { p with fresh := false } ∧ y.pdom (1 - d) = x.pdom (1 - d) ∧
      (x.stepped = true → x.ptm.holdover = false → x.ptpActive = d → p.st = 5 → x.ptpValid (1 - d) = false →
        y.ptm.holdover = true ∧ y.rbit Reg.ptmEvt 2 = true) ∧ y.ptm.time = x.ptm.time ∧ y.mem = x.mem) ∧
    OnHalf (.holdoverExpiry h) h s (fun y => y.ptm = { x.ptm with hold := false } ∧
      (x.ptm.holdover = true → y.rbit Reg.ptmStatus 2 = false) ∧ OnlyRegs [Reg.ptmStatus] { x with ptm := y.ptm } y) ∧
    (x.ptpActive = 1 → x.stepped = true → x.ptpValid 0 = true → x.rfld Reg.ptmCtrl 24 8 ≠ 0 → x.rfld Reg.ptmCtrl 4 2 = 0 →
      OnHalf (.revert h) h s (fun y => y.ptpActive = 0 ∧ y.stepped = true ∧ (y.pdom 0).st = 4 ∧ y.ptm.holdover = false ∧
        y.rbit Reg.ptmEvt 1 = true ∧ y.mem = x.mem)) ∧
    (x.ptpActive = 0 → exec (.revert h) s = .next s)

/-! ## Networks and trace (R514 to R545) -/

/-- An error of the networks sets its bit; a probe that is enabled counts the packet that passes its point and matches, and
no other; CLEAR zeroes its counters (R521, R526 to R528, R543, R544). The model's choices: packets whose route does not fit
pass no probe (log 97), a command that cannot arise changes nothing (log 7). -/
def Obligations.NetworkErrorsAndProbesAreCounted : Prop :=
  ∀ (h : HalfId) (m : Master) (k : BitVec 4) (p : ProbePkt) (v : Word) (s : State),
    let x := s.half h
    let i := k.toNat
    let top := 2 ^ 64 - 1
    let lo := [Reg.nocPrbPktsLo i, Reg.nocPrbPktsHi i, Reg.nocPrbFlitsLo i, Reg.nocPrbFlitsHi i, Reg.nocPrbWaitLo i, Reg.nocPrbWaitHi i]
    OnHalf (.nocTimeout h .noResponse) h s (fun y => OnlyRegs [Reg.nocStatus] x y ∧ y.reg Reg.nocStatus = x.reg Reg.nocStatus ||| 4#32) ∧
    OnHalf (.nocTimeout h .routeError) h s (fun y => OnlyRegs [Reg.nocStatus] x y ∧ y.reg Reg.nocStatus = x.reg Reg.nocStatus ||| 2#32) ∧
    OnHalf (.nocTimeout h .headerUncorr) h s (fun y => y.run = { x.run with hfault := true } ∧
      OnlyRegs [Reg.nocStatus] { x with run := y.run } y ∧ y.reg Reg.nocStatus = x.reg Reg.nocStatus ||| 8#32) ∧
    OnHalf (.nocTimeout h .corrected) h s (fun y => OnlyRegs [Reg.nocStatus, Reg.nocCorrCount] x y ∧
      y.reg Reg.nocStatus = x.reg Reg.nocStatus ||| 1#32 ∧
      (y.reg Reg.nocCorrCount).toNat = min ((x.reg Reg.nocCorrCount).toNat + 1) (2 ^ 32 - 1)) ∧
    (x.probePoint i p = false ∨ x.probeHits i p = false → exec (.probeMatch h k p) s = .next s) ∧
    (x.probePoint i p = true → x.probeHits i p = true → NoTrace x → OnHalf (.probeMatch h k p) h s (fun y => OnlyRegs lo x y ∧
      y.reg64 (Reg.nocPrbPktsLo i) (Reg.nocPrbPktsHi i) = min (x.reg64 (Reg.nocPrbPktsLo i) (Reg.nocPrbPktsHi i) + 1) top ∧
      y.reg64 (Reg.nocPrbFlitsLo i) (Reg.nocPrbFlitsHi i) =
        min (x.reg64 (Reg.nocPrbFlitsLo i) (Reg.nocPrbFlitsHi i) + p.flits) top ∧
      y.reg64 (Reg.nocPrbWaitLo i) (Reg.nocPrbWaitHi i) = min (x.reg64 (Reg.nocPrbWaitLo i) (Reg.nocPrbWaitHi i) + p.wait) top)) ∧
    (Served s h m → OnHalf (.probeClear h m k v) h s (fun y => (∀ o ∈ lo, y.reg o = 0#32) ∧
      OnlyRegs (Reg.nocPrbCfg i :: lo) x y ∧ y.rbit (Reg.nocPrbCfg i) 31 = wbit v 31 ∧
      (x.rbit (Reg.nocPrbCfg i) 31 = false → y.reg (Reg.nocPrbCfg i) = v &&& 0xDFFFFFFF#32)))

/-- Tracing is enabled with an empty ring, or turned away where its HBM ring is no proper region; disabled it keeps what it
has; GO and RESTART move the event machine, GO by an event that waits for its next evaluation, in which arc 0 comes before
arc 1; a periodic SYNC reaches the FIFO of every enabled source; the steward alone composes STW_LOG packets, which
TRC_STW_END sends, with no words in waiting after it (R532, R535, R538 to R540, R545). The model's choices: when latched
events are evaluated (logs 51, 126), a command that cannot arise changes nothing (log 7). -/
def Obligations.TracingStartsMovesAndStops : Prop :=
  ∀ (h : HalfId) (m : Master) (v : Word) (s : State), Served s h m →
    let x := s.half h
    let on := x.rbit Reg.trcCtrl 31
    let k := x.rfld Reg.trcStatus 30 2
    (on = false → wbit v 31 = false → OnHalf (.traceEnable h m v) h s (fun y => OnlyRegs [Reg.trcCtrl] x y ∧
      y.reg Reg.trcCtrl = v &&& 0xFC00FF01#32)) ∧
    (on = false → wbit v 31 = true → fld v 28 2 = 2 → x.trcRingOk = false → OnHalf (.traceEnable h m v) h s (fun y =>
      OnlyRegs [Reg.trcStatus] x y ∧ y.rbit Reg.trcStatus 2 = true)) ∧
    (on = false → wbit v 31 = true → (fld v 28 2 = 2 → x.trcRingOk = true) → OnHalf (.traceEnable h m v) h s (fun y =>
      y.rbit Reg.trcCtrl 31 = true ∧ y.rfld Reg.trcStatus 30 2 = 0 ∧ y.reg64 Reg.trcWptrLo Reg.trcWptrHi = 0 ∧
      y.reg64 Reg.trcBlocksLo Reg.trcBlocksHi = 0 ∧ y.reg Reg.trcDrop = 0#32 ∧ y.trc.tclk = x.trc.tclk ∧ y.trc.block = [] ∧
      y.mem = x.mem)) ∧
    (on = true → wbit v 31 = false → x.traceOn = false → OnHalf (.traceEnable h m v) h s (fun y =>
      OnlyRegs [Reg.trcCtrl] x y ∧ y.rbit Reg.trcCtrl 31 = false)) ∧
    (on = true → wbit v 31 = true → exec (.traceEnable h m v) s = .next s) ∧
    (on = false → exec (.trcGo h m) s = .next s) ∧
    (on = true → OnHalf (.trcGo h m) h s (fun y => y = { x with trc := { x.trc with evts := x.trc.evts ++ [0x210] } })) ∧
    (on = true → x.rfld (Reg.trcEmS k) 0 10 ∈ x.trc.evts →
      x.rbit (Reg.trcEmS (x.rfld (Reg.trcEmS k) 12 2)) 31 = x.rbit Reg.trcStatus 29 →
        OnlyRegs [Reg.trcStatus] { x with trc := { x.trc with evts := [] } } x.traceEval ∧
        x.traceEval.rfld Reg.trcStatus 30 2 = x.rfld (Reg.trcEmS k) 12 2 ∧
        x.traceEval.rbit Reg.trcStatus 29 = x.rbit Reg.trcStatus 29) ∧
    (on = true → x.rfld (Reg.trcEmS k) 0 10 ∉ x.trc.evts → x.rfld (Reg.trcEmS k) 16 10 ∈ x.trc.evts →
      x.rbit (Reg.trcEmS (x.rfld (Reg.trcEmS k) 28 2)) 31 = x.rbit Reg.trcStatus 29 →
        x.traceEval.rfld Reg.trcStatus 30 2 = x.rfld (Reg.trcEmS k) 28 2 ∧ x.traceEval.trc.evts = []) ∧
    ((on && x.rbit (Reg.trcEmS 0) 31) = x.traceOn → OnHalf (.trcRestart h m) h s (fun y =>
      OnlyRegs [Reg.trcStatus] x y ∧ y.rfld Reg.trcStatus 30 2 = 0)) ∧
    (x.traceOn = false ∨ x.rfld Reg.trcCtrl 8 8 = 0 → exec (.tracePeriodicSync h) s = .next s) ∧
    (x.traceOn = true → x.rfld Reg.trcCtrl 8 8 ≠ 0 → OnHalf (.tracePeriodicSync h) h s (fun y => y.mem = x.mem ∧
      ∀ n, x.srcEnabled n = true → sget x.trc.lost n none = none → traceWords (sget x.trc.fifo n []) + 7 ≤ 64 →
        sget y.trc.fifo n [] = sget x.trc.fifo n [] ++ [x.syncPacket n 1])) ∧
    (x.trc.stw.length < 7 → OnHalf (.trcStwLogWrite h .stw v) h s (fun y =>
      y = { x with trc := { x.trc with stw := x.trc.stw ++ [v] } })) ∧
    (7 ≤ x.trc.stw.length → exec (.trcStwLogWrite h .stw v) s = .next s) ∧
    (m ≠ .stw → OnHalf (.trcStwLogWrite h m v) h s (fun y => y.trc = x.trc ∧ y.regs = x.regs)) ∧
    (m ≠ .stw → OnHalf (.trcStwEndWrite h m) h s (fun y => y.trc = x.trc ∧ y.regs = x.regs)) ∧
    OnHalf (.trcStwEndWrite h .stw) h s (fun y => y.trc.stw = [] ∧ y.trc.block = x.trc.block ∧
      y.trc.tclk = x.trc.tclk ∧ y.run = x.run ∧ y.mem = x.mem ∧
      ∀ o, o ≠ Reg.trcDrop → o ≠ Reg.trcStatus → y.reg o = x.reg o) ∧
    (x.traceOn = true → x.srcEnabled 0x20 = true → x.trc.stw ≠ [] → sget x.trc.lost 0x20 none = none →
      x.trc.tclk - (sget x.trc.last 0x20 none).getD x.trc.tclk < 2 ^ 18 →
      traceWords (sget x.trc.fifo 0x20 []) + x.trc.stw.length + 1 ≤ 64 →
      OnHalf (.trcStwEndWrite h .stw) h s (fun y => y.regs = x.regs ∧ sget y.trc.fifo 0x20 [] = sget x.trc.fifo 0x20 [] ++
        [traceHead 0x20 0 x.trc.stw.length (x.trc.tclk - (sget x.trc.last 0x20 none).getD x.trc.tclk) :: x.trc.stw])) ∧
    (x.traceOn = false ∨ x.trc.stw = [] → OnHalf (.trcStwEndWrite h .stw) h s (fun y =>
      y = { x with trc := { x.trc with stw := [] } }))

/-! ## Supply, references, fallow and reset (R546 to R575) -/

/-- A feed's change shows in its bits and its event; a thermal sample asks for throttling at 100 °C and for its end at 95
°C; the step clock changes its rate outside a run; a power failure stops what runs, is recorded, holds both halves in reset
and is released once a feed is good (R546 to R551). The model's choices: the code of a power-fail hold and fields of the
stop record (log 59), a command that cannot arise changes nothing (log 7). -/
def Obligations.SupplyAndTemperatureAreWatched : Prop :=
  ∀ (h : HalfId) (feedB : Bool) (e : FeedEvent) (tenMv : BitVec 16) (tj powerW : BitVec 16) (s : State),
    let x := s.half h
    let b := bitNat feedB
    let lost := fun (z : Half) => z.rbit Reg.pwrStatus 1 = false ∧ z.rbit Reg.pwrStatus 2 = false
    OnHalf (.feedStateChange h feedB e tenMv) h s (fun y =>
      y.rfld Reg.pwrFeed (16 * b) 16 = tenMv.toNat ∧ y.rfld Reg.pwrFeed (16 - 16 * b) 16 = x.rfld Reg.pwrFeed (16 - 16 * b) 16 ∧
      y.rbit Reg.pwrStatus (1 + b) = (e == .good) ∧ y.rbit Reg.pwrStatus (2 - b) = x.rbit Reg.pwrStatus (2 - b) ∧
      (e = .lost → x.rbit Reg.pwrStatus (1 + b) = true → y.rbit Reg.pwrEvt b = true) ∧
      (e = .good → x.rbit Reg.pwrStatus (1 + b) = false → y.rbit Reg.pwrEvt 2 = true) ∧
      (e = .overvoltage → y.rbit Reg.pwrStatus (3 + b) = true) ∧
      y.rbit Reg.pwrStatus 0 = (x.run.throttled || !y.rbit Reg.pwrStatus 1 || !y.rbit Reg.pwrStatus 2 || x.rbit Reg.stwBoot 29) ∧
      (∀ o, o ∉ [Reg.pwrFeed, Reg.pwrStatus, Reg.pwrEvt] → y.reg o = x.reg o) ∧ y.mem = x.mem) ∧
    (s.paired h = false →
      let sample := BitVec.ofNat 32 (powerW.toNat * 65536 + tj.toNat)
      (760 < tj.toInt → tj.toInt < 800 → OnHalf (.thermalSample h tj powerW) h s (fun y => y.reg Reg.pwrTemp = sample ∧
        OnlyRegs [Reg.pwrTemp] { x with sys := { x.sys with hot := 0 } } y)) ∧
      (800 ≤ tj.toInt → tj.toInt < 864 → x.rbit Reg.pwrStatus 5 = false → x.run.throttled = false →
        OnHalf (.thermalSample h tj powerW) h s (fun y => y.reg Reg.pwrTemp = sample ∧ y.rbit Reg.pwrStatus 5 = true ∧
          y.run = { x.run with thrReq := some true } ∧ y.mem = x.mem)) ∧
      (tj.toInt ≤ 760 → x.rbit Reg.pwrStatus 5 = true → x.run.throttled = true → OnHalf (.thermalSample h tj powerW) h s (fun y =>
        y.reg Reg.pwrTemp = sample ∧ y.rbit Reg.pwrStatus 5 = false ∧ y.run = { x.run with thrReq := some false } ∧ y.mem = x.mem)) ∧
      (864 ≤ tj.toInt → 1 ≤ x.sys.hot → OnHalf (.thermalSample h tj powerW) h s (fun y =>
        y.rbit Reg.rstCause 5 = true ∧ natBit y.sys.asserted 5 = true ∧ y.run.state = .unloaded)) ∧
      (x.run.thrReq = none ∨ x.run.linked = true → exec (.throttleSwitch h) s = .next s) ∧
      (∀ on, x.run.thrReq = some on → x.run.linked = false → x.run.stall = none → x.inRun = false → x.evtAct 279 = 0 →
        x.seq.wait = .none → NoTrace x → Calm s → OnHalf (.throttleSwitch h) h s (fun y =>
          y.run = { x.run with throttled := on, thrReq := none } ∧ y.rbit Reg.pwrEvt (if on then 3 else 4) = true ∧
          y.pendFlag 279 = true ∧ y.mem = x.mem))) ∧
    (¬ (lost s.h0 ∧ lost s.h1) → exec .powerFail s = .next s) ∧
    (lost s.h0 → lost s.h1 → s.h0.sys.fail = none → s.h1.sys.fail = none →
      (Calm s → s.h0.run.state ≠ .running → s.h1.run.state ≠ .running → Answers .powerFail s (fun t => ∀ h,
        let y := t.half h
        y.rbit Reg.pwrStatus 6 = true ∧ y.sys = { (s.half h).sys with fail := some .stopping, failAt := (s.half h).phc } ∧
        y.pci.down = true ∧ y.run = (s.half h).run ∧ y.mem = (s.half h).mem)) ∧
      (s.h0.run.state = .running → s.h1.run.state = .running → Answers .powerFail s (fun t => ∀ h,
        (t.half h).run.req.isSome = true ∧ (t.half h).sys.fail = some .stopping))) ∧
    (s.h0.sys.fail = some .stopping → s.h1.sys.fail = some .stopping → Answers .stopRecordDone s (fun t => ∀ h,
      let z := s.half h
      let y := t.half h
      y.sys.fail = some .held ∧ natBit y.sys.asserted 1 = true ∧ y.rbit Reg.rstCause 1 = true ∧ y.sys.stops = z.sys.stops + 1 ∧
      y.sys.newStop = true ∧ rdBytes y.mem (flashBase + stopBase + z.sys.stopSlot * 8192) z.stopRecord.length = z.stopRecord)) ∧
    (s.h0.rbit Reg.pwrStatus 1 = true → s.h0.sys.fail = some .held → s.h1.sys.fail = some .held → Answers .powerFailRelease s
      (fun t => ∀ h, (t.half h).sys.fail = none ∧ natBit (t.half h).sys.asserted 1 = false ∧ (t.half h).regs = (s.half h).regs)) ∧
    (lost s.h0 → lost s.h1 → exec .powerFailRelease s = .next s)

/-- The loss of the reference in use puts the root PLL in holdover, its return ends it, the lock on another source moves
IN_USE; a new reference is taken outside runs and bundles; a holdover that lasts resets the half; a wake cause arises in
fallow and its exit ends it (R552 to R557). The model's choices: LOCKED in holdover (log 16), which half is asked (log 60),
a command that cannot arise changes nothing (log 7). -/
def Obligations.ReferencesAndFallow : Prop :=
  ∀ (h : HalfId) (m : Master) (src : BitVec 2) (v : Word) (s : State),
    let x := s.half h
    let st := Reg.clkStatus
    (src = 3#2 ∨ x.srcValid src.toNat = false → exec (.sourceInvalid h src) s = .next s) ∧
    (src ≠ 3#2 → x.srcValid src.toNat = true → OnHalf (.sourceInvalid h src) h s (fun y => y.srcValid src.toNat = false ∧
      y.rbit Reg.clkEvt 0 = true ∧ (x.inUse = src.toNat → y.rbit st 11 = true ∧
        (x.rbit st 11 = false → y.rbit st 10 = false ∧ y.rbit Reg.clkEvt 1 = true)) ∧
      (x.inUse ≠ src.toNat → y.rbit st 11 = x.rbit st 11 ∧ y.rbit st 10 = x.rbit st 10) ∧ y.inUse = x.inUse ∧
      (∀ o, o ∉ [st, Reg.clkEvt] → y.reg o = x.reg o) ∧ y.mem = x.mem)) ∧
    (src ≠ 3#2 → OnHalf (.sourceValid h src) h s (fun y => y.srcValid src.toNat = true ∧
      (x.rbit st 11 = true → x.sys.pllMove = false → x.inUse = src.toNat → y.rbit st 11 = false ∧ y.rbit st 10 = true) ∧
      (x.inUse ≠ src.toNat → y.rbit st 11 = x.rbit st 11) ∧ y.inUse = x.inUse ∧ ∀ o, o ≠ st → y.reg o = x.reg o)) ∧
    (x.sys.pllMove = true → OnHalf (.rootPllLock h) h s (fun y => y.inUse = x.clkPrimary ∧ y.rbit st 10 = true ∧
      y.rbit st 11 = false ∧ y.sys = { x.sys with pllMove := false } ∧ ∀ o, o ≠ st → y.reg o = x.reg o)) ∧
    (∀ i, s.paired h = false → x.sys.pllMove = false → x.rbit st 11 = true → x.rbit Reg.clkRefCfg 4 = true →
      x.clkSecondary = some i → x.srcValid i = true → OnHalf (.rootPllLock h) h s (fun y => y.inUse = i ∧ y.rbit st 10 = true ∧
        y.rbit st 11 = false ∧ y.rbit Reg.clkEvt 2 = true ∧ (x.run.linked = true → x.inUse = 2 → i ≠ 2 → y.run.linkHalt = true))) ∧
    (x.sys.pllMove = false → x.rbit st 11 = false → exec (.rootPllLock h) s = .next s) ∧
    (x.rbit st 11 = true → OnHalf (.holdoverTimeout h) h s (fun y => y.rbit Reg.rstCause 6 = true ∧ natBit y.sys.asserted 6 = true ∧
      y.run.state = .unloaded)) ∧
    (x.rbit st 11 = false → exec (.holdoverTimeout h) s = .next s) ∧
    (Served s h m → x.inRun = true → OnHalf (.clkRefCfgWrite h m v) h s (fun y => OnlyRegs [st] x y ∧ y.rbit st 0 = true)) ∧
    (Served s h m → x.inRun = false → (∀ b, b < 12 → x.rbit (Reg.lnkTmBcfg b) 0 = false) →
      OnHalf (.clkRefCfgWrite h m v) h s (fun y => y.reg Reg.clkRefCfg = v &&& 0x3F#32 ∧
        ((if fld v 0 2 = 3 then 0 else fld v 0 2) = x.inUse → OnlyRegs [Reg.clkRefCfg] x y) ∧
        ((if fld v 0 2 = 3 then 0 else fld v 0 2) ≠ x.inUse → y.sys = { x.sys with pllMove := true } ∧ y.rbit st 11 = true))) ∧
    (x.sys.fallow.isSome = true → x.rbit Reg.pwrWake 31 = true → OnHalf (.wakeTimer h) h s (fun y =>
      natBit y.sys.wake 3 = true ∧ y = { x with sys := { x.sys with wake := y.sys.wake } })) ∧
    (x.rbit Reg.pwrWake 31 = false → exec (.wakeTimer h) s = .next s) ∧
    (x.sys.fallow = none ∨ x.wakeCause = none → exec (.fallowExit h) s = .next s) ∧
    (∀ c, s.paired h = false → x.sys.fallow.isSome = true → x.wakeCause = some c → OnHalf (.fallowExit h) h s (fun y =>
      y.sys.fallow = none ∧ (∀ k, k < 3 → x.sys.fallow = some (.mbx k) → y.rbit (Reg.stwMbxStat k) 1 = true ∧
        y.rbit (Reg.stwMbxStat k) 0 = false ∧ y.rfld (Reg.stwMbxStat k) 8 8 = 0 ∧ y.rfld (Reg.stwMbxRsp k 0) 8 8 = c)))

/-- A reset source of reach Half or wider is asserted and recorded: what is volatile is at its reset value. -/
def Sys2Proof.Claims.ResetBy (i : Nat) (x y : Half) : Prop :=
  natBit y.sys.asserted i = true ∧ y.rbit Reg.rstCause i = true ∧ (∀ j, j < 32 → j ≠ i → y.rbit Reg.rstCause j = x.rbit Reg.rstCause j) ∧
  y.sys.booting = true ∧ y.run.state = .unloaded ∧ (∀ o, alwaysOn o = false → y.reg o = regReset o) ∧
  (∀ a, rdByte y.mem a = if a < flashBase then emptyByte else rdByte x.mem a) ∧ y.sec.otp = x.sec.otp ∧ y.fab.flash = x.fab.flash

/-- The reset sources: a POR resets everything, a module or half reset everything volatile, those of the endpoint its core,
those of a block its registers outside a run; a release of the last source ends the reset (R477, R482, R558 to R561, R570 to
R573). The model's choices: a reset acts at its assertion (log 14), memories outlive a block reset (log 15), a command that
cannot arise changes nothing (log 7). -/
def Obligations.ResetsReachWhatTheyReach : Prop :=
  ∀ (h : HalfId) (m : Master) (v : Word) (src : BitVec 4) (s : State),
    let x := s.half h
    let core := fun (y : Half) (i : Nat) => natBit y.sys.asserted i = true ∧ y.rbit Reg.rstCause i = true ∧
      y.rbit Reg.pciStatus 3 = false ∧ y.rbit Reg.pciStatus 2 = false ∧ y.rbit Reg.pciStatus 1 = false ∧ y.pci.mxTab = [] ∧
      y.pci.mxPend = [] ∧ y.mem = x.mem ∧ y.run = x.run
    Answers .por s (fun t => ∀ h, (t.half h).sys.asserted = 0 ∧ (t.half h).sys.por = true ∧ (t.half h).sys.booting = true ∧
      (t.half h).run.state = .unloaded ∧ (t.half h).reg Reg.rstCause = regReset Reg.rstCause ∧
      (t.half h).sec.otp = (s.half h).sec.otp ∧
      ∀ a, rdByte (t.half h).mem a = if a < flashBase then emptyByte else rdByte (s.half h).mem a) ∧
    Answers .modRst s (fun t => ∀ h, ResetBy 2 (s.half h) (t.half h)) ∧
    OnHalf (.halfSw h .stw) h s (ResetBy 3 x) ∧
    (Served s h m → m ≠ .stw → OnHalf (.halfSw h m) h s (fun y => y.sys = x.sys ∧ y.regs = x.regs ∧ y.mem = x.mem)) ∧
    (x.rbit Reg.rstWdog 31 = true → OnHalf (.watchdog h) h s (ResetBy 4 x)) ∧
    (x.rbit Reg.rstWdog 31 = false → exec (.watchdog h) s = .next s) ∧
    OnHalf (.kick h .stw v) h s (fun y => OnlyRegs [Reg.rstWdog] x y ∧
      y.reg Reg.rstWdog = (v &&& 0x8000FFFF#32) ||| (x.reg Reg.rstWdog &&& 0x80000000#32)) ∧
    OnHalf (.perst h) h s (fun y => core y 8 ∧ y.rbit Reg.pciStatus 0 = false ∧ y.rbit Reg.pciEvt 2 = true) ∧
    OnHalf (.hotReset h) h s (fun y => core y 9 ∧ y.rbit Reg.pciStatus 0 = false) ∧
    OnHalf (.flr h) h s (fun y => core y 10 ∧ y.rbit Reg.pciStatus 0 = x.rbit Reg.pciStatus 0 ∧ y.rbit Reg.pciEvt 3 = true) ∧
    (s.h0.pins.extest = false → s.h1.pins.extest = false → Answers .trst s (fun t => ∀ h,
      natBit (t.half h).sys.asserted 12 = true ∧ (t.half h).rbit Reg.rstCause 12 = true ∧
      (t.half h).sys.stwHalt = false ∧ (t.half h).regs = ((s.half h).setRBit Reg.rstCause 12 true).regs)) ∧
    (∀ i, 5 ≤ i → i < 22 → i ≠ 16 → i ≠ 18 → Served s h m → (m = .stw ∨ m = .host ∨ m = .seq) →
      (x.inRun = false ∨ i = 13 ∨ i = 15 ∨ i = 19 → OnHalf (.blockSw h m (BitVec.ofNat 32 (2 ^ i))) h s (fun y =>
        (∀ o, o / 0x100000 = i → isChanDecl o = false → y.reg o = regReset o) ∧ y.rbit Reg.rstSwrst i = true ∧
        natBit y.sys.asserted 11 = true ∧ (i ≠ 15 → y.mem = x.mem))) ∧
      (x.inRun = true → i ≠ 13 → i ≠ 15 → i ≠ 19 → OnHalf (.blockSw h m (BitVec.ofNat 32 (2 ^ i))) h s (fun y =>
        OnlyRegs [Reg.rstStatus] x y ∧ y.rbit Reg.rstStatus 0 = true))) ∧
    (src ≠ 1#4 → natBit x.sys.asserted src.toNat = true → OnHalf (.resetRelease h src) h s (fun y =>
      natBit y.sys.asserted src.toNat = false ∧ (src = 11#4 → y.rfld Reg.rstSwrst 0 22 = 0) ∧
      (src ≠ 11#4 → y = { x with sys := { x.sys with asserted := y.sys.asserted } }))) ∧
    (natBit x.sys.asserted src.toNat = false → exec (.resetRelease h src) s = .next s)

/-- The release sequence goes stage by stage: a BLANK half takes the factory set, the ROM starts the firmware of a valid
slot and stays where none is, the start-up test ends before stage 7, stage 9 is READY (R560, R562 to R564, R578). The
model's choices: one row is one attempt at a stage (log 61), a command that cannot arise changes nothing (log 7). -/
def Obligations.TheReleaseSequenceGoesStageByStage : Prop :=
  ∀ (h : HalfId) (ok : Bool) (flags : BitVec 8) (s : State),
    let x := s.half h
    let stage := fun (y : Half) (n : Nat) => y.rfld Reg.stwBoot 16 4 = n ∧ y.rfld Reg.rstStatus 12 4 = n
    let at_ := x.rfld Reg.stwBoot 16 4
    (x.sys.booting = false ∨ x.heldInReset = true → exec (.releaseStage h ok flags) s = .next s) ∧
    (x.sys.booting = true → x.heldInReset = false →
      (at_ = 0 → OnHalf (.releaseStage h ok flags) h s (fun y => stage y 1 ∧ OnlyRegs [Reg.stwBoot, Reg.rstStatus] x y)) ∧
      (at_ = 1 → x.lcs = 0 → OnHalf (.releaseStage h ok flags) h s (fun y => stage y 2 ∧ y.sec.opt = x.factorySet)) ∧
      (at_ = 2 → ok = true → OnHalf (.releaseStage h ok flags) h s (fun y => stage y 3 ∧ y.rbit Reg.clkStatus 10 = true ∧
        y.inUse = x.clkPrimary)) ∧
      (at_ = 2 → ok = false → exec (.releaseStage h ok flags) s = .next s) ∧
      (at_ = 3 → x.rbit Reg.secStatus 16 = false → x.chooseFw = none → OnHalf (.releaseStage h ok flags) h s (fun y =>
        y.rbit Reg.secStatus 16 = true ∧ y.rfld Reg.stwBoot 16 4 = 3 ∧ y.rbit Reg.stwBoot 30 = x.rbit Reg.stwBoot 30)) ∧
      (∀ b img, at_ = 3 → x.rbit Reg.secStatus 16 = false → x.chooseFw = some (b, img) →
        OnHalf (.releaseStage h ok flags) h s (fun y => stage y 4 ∧ y.rbit Reg.stwBoot 30 = true ∧ y.rbit Reg.secStatus 17 = b ∧
          y.sec.fwVer = leAt img 8 4 ∧ y.sec.fwSvn = leAt img 12 4 ∧
          (x.sec.tampered = false → y.msBytes 0 = sha384 (x.msBytes 0 ++ sha384 img) ∧
            y.reg (Reg.secMsCnt 0) = x.reg (Reg.secMsCnt 0) + 1#32))) ∧
      (at_ = 5 → OnHalf (.releaseStage h ok flags) h s (fun y => stage y 6 ∧ y.rfld Reg.stwBoot 26 2 = flags.toNat % 4 ∧
        y.marchBusy = true)) ∧
      (at_ = 6 → x.marchBusy = true → exec (.releaseStage h ok flags) s = .next s) ∧
      (at_ = 6 → x.marchBusy = false → OnHalf (.releaseStage h ok flags) h s (fun y => stage y 7)) ∧
      (at_ = 8 → OnHalf (.releaseStage h ok flags) h s (fun y => stage y 9 ∧ y.rbit Reg.stwBoot 31 = true ∧ y.sys.booting = false ∧
        y.sys.por = false)))

/-! ## The steward mailbox (R565 to R569, R585 to R595) -/

/-- The steward has the command with this code of instance `k` before it. -/
abbrev Sys2Proof.Claims.Turn (x : Half) (k code : Nat) : Prop := x.mbxTurn k code = true

/-- The command of instance `k` has ended with a result. -/
abbrev Sys2Proof.Claims.Ended (k result : Nat) (y : Half) : Prop :=
  y.rbit (Reg.stwMbxStat k) 0 = false ∧ y.rbit (Reg.stwMbxStat k) 1 = true ∧ y.rfld (Reg.stwMbxStat k) 8 8 = result ∧ k ∉ y.sys.mbx

/-- The steward performs a command that has its turn, and ends it with its result and response: STATUS, HOST_ENABLE, WAKE,
HALF_RESET, READ_STOP, CLEAR_STOP, FALLOW; what has no turn does nothing (R476, R549, R555, R557, R565, R566, R588). The
model's choices: a command is performed by its own row in its turn (log 69), a command that cannot arise changes nothing
(log 7). -/
def Obligations.MailboxCommandsEndWithTheirResult : Prop :=
  ∀ (h : HalfId) (k : BitVec 2) (s : State),
    let x := s.half h
    let n := k.toNat
    (¬ Turn x n 1 → exec (.mbxStatus h k) s = .next s) ∧ (¬ Turn x n 2 → exec (.hostEnable h k) s = .next s) ∧
    (¬ Turn x n 3 → exec (.loadImage h k) s = .next s) ∧ (¬ Turn x n 4 → exec (.mailboxFallow h k) s = .next s) ∧
    (¬ Turn x n 5 → exec (.wake h k) s = .next s) ∧ (¬ Turn x n 6 → exec (.halfReset h k) s = .next s) ∧
    (Turn x n 1 → OnHalf (.mbxStatus h k) h s (fun y => Ended n 0 y ∧ y.reg (Reg.stwMbxRsp n 0) = x.reg Reg.stwBoot ∧
      y.reg (Reg.stwMbxRsp n 1) = x.reg Reg.rstCause ∧ y.reg (Reg.stwMbxRsp n 2) = BitVec.ofNat 32 x.sec.fwVer ∧ y.mem = x.mem)) ∧
    (Turn x n 2 → x.permitted = true → OnHalf (.hostEnable h k) h s (fun y => Ended n 0 y ∧
      y.rbit Reg.pciCtrl 0 = natBit (x.arg n 0) 0 ∧ y.run = x.run)) ∧
    (Turn x n 2 → x.permitted = false → OnHalf (.hostEnable h k) h s (fun y => Ended n 0x42 y ∧
      y.reg Reg.pciCtrl = x.reg Reg.pciCtrl ∧ y.mem = x.mem)) ∧
    (Turn x n 5 → OnHalf (.wake h k) h s (fun y => Ended n 0 y ∧ (x.sys.fallow.isSome = true → natBit y.sys.wake 2 = true) ∧
      y.mem = x.mem)) ∧
    (Turn x n 6 → OnHalf (.halfReset h k) h s (ResetBy 3 x)) ∧
    (Turn x n 7 → x.newestStop = none → OnHalf (.readStop h k) h s (fun y => Ended n 0x43 y ∧ y.mem = x.mem)) ∧
    (∀ r a, Turn x n 7 → x.newestStop = some r → sp6 (x.arg n 0) r.length = some a → OnHalf (.readStop h k) h s (fun y =>
      Ended n 0 y ∧ y.reg (Reg.stwMbxRsp n 0) = BitVec.ofNat 32 r.length ∧ (∀ i (hi : i < r.length), rdByte y.mem (a + i) = r[i]) ∧
      ∀ b, b < a ∨ a + r.length ≤ b → rdByte y.mem b = rdByte x.mem b)) ∧
    (Turn x n 8 → OnHalf (.clearStop h k) h s (fun y => Ended n 0 y ∧ y.rbit Reg.stwBoot 28 = false ∧ y.sys.newStop = false ∧
      y.mem = x.mem)) ∧
    (Turn x n 4 → s.mayFallow h = false → OnHalf (.mailboxFallow h k) h s (fun y => Ended n 1 y ∧ y.mem = x.mem)) ∧
    (Turn x n 4 → s.mayFallow h = true → s.paired h = false → OnHalf (.mailboxFallow h k) h s (fun y =>
      y.sys.fallow = some (.mbx n)))

/-- A load in SPLIT: refused, its arguments turned away, BUSY during a run, or begun with its half not loaded and the image
measured; at its end the status record names the first error, or says that there is none (R110, R111, R566 to R568, R579).
The model's choices: conditions of BAD_ARG (log 19), MS4 and the unloading at the start (log 20), the object a finding names
(log 22), a load asked for in fallow (log 127), a command that cannot arise changes nothing (log 7). -/
def Obligations.ImageLoadsBeginAndEnd : Prop :=
  ∀ (h : HalfId) (k : BitVec 2) (s : State), s.wf = true →
    let x := s.half h
    let n := k.toNat
    let off := x.arg n 0 + x.arg n 1 * 2 ^ 32
    let len := x.arg n 2 + x.arg n 3 * 2 ^ 32
    let sound := off % 64 = 0 ∧ off + len ≤ 2 * stackBytes
    let taken := Turn x n 3 ∧ x.sys.load = none ∧ 2 ≤ x.arg n 4 % 4 ∧ x.permitted = true ∧ x.rbit Reg.stwBoot 29 = false ∧
      x.sys.fallow = none ∧ NoErrors x
    let measured := fun (y : Half) => x.sec.tampered = false →
      y.msBytes 4 = sha384 (x.msBytes 4 ++ sha384 (rdBytes x.mem (hbmBase + off) len))
    (Turn x n 3 → x.sys.load = none → x.permitted = false ∨ x.rbit Reg.stwBoot 29 = true ∨ x.sys.fallow.isSome = true →
      OnHalf (.loadImage h k) h s (fun y =>
      Ended n 1 y ∧ y.run = x.run ∧ y.mem = x.mem)) ∧
    (taken → ¬ sound → OnHalf (.loadImage h k) h s (fun y => Ended n 0x41 y ∧ y.run = x.run ∧ y.mem = x.mem)) ∧
    (taken → sound → x.inRun = true ∨ x.marchBusy = true → OnHalf (.loadImage h k) h s (fun y => Ended n 0 y ∧
      y.reg (Reg.stwMbxRsp n 0) = 3#32 ∧ y.run = x.run ∧ measured y)) ∧
    (taken → sound → x.inRun = false → x.marchBusy = false → OnHalf (.loadImage h k) h s (fun y => measured y ∧
      y.sys = { x.sys with load := some (n, x.arg n 4 % 4, off, len) } ∧
      y.run = { x.run with state := .unloaded, loaded := none, prev := x.run.loaded.or x.run.prev } ∧ y.mem = x.mem)) ∧
    (x.sys.load = none ∨ x.sys.stwHalt = true → exec (.imageLoadDone h) s = .next s) ∧
    (∀ k mode off len, k < 3 → x.sys.load = some (k, mode, off, len) → x.sys.stwHalt = false → 2 ≤ mode →
      (∀ f : Finding, ((x.staged mode off len).check s).find? (fun g => !isWarn g.code) = some f →
        OnHalf (.imageLoadDone h) h s (fun y => Ended k 0 y ∧ y.run = x.run ∧ y.sys.load = none ∧
          y.reg (Reg.stwMbxRsp k 0) = BitVec.ofNat 32 (2 + f.code * 2 ^ 8 + f.sect * 2 ^ 16))) ∧
      ((x.staged mode off len).check s = [] → Answers (.imageLoadDone h) s (fun t => Ended k 0 (t.half h) ∧
        (t.half h).reg (Reg.stwMbxRsp k 0) = 0#32)))

/-- What the steward measures and signs: GET_MEAS, ATTEST, GET_CERT, EXTEND and FW_STAGE answer and store what they name; a
command that an instance does not accept ends with BAD_CMD (R579, R582, R585, R586). The model's choices: signatures are
open values (logs 4, 64), a command that cannot arise changes nothing (log 7). -/
def Obligations.MeasurementsAreGivenAndExtended : Prop :=
  ∀ (h : HalfId) (k : BitVec 2) (s : State),
    let x := s.half h
    let n := k.toNat
    let i := x.arg n 0
    (¬ Turn x n 0x40 → exec (.getMeas h k) s = .next s) ∧ (¬ Turn x n 0x41 → exec (.attest h k) s = .next s) ∧
    (¬ Turn x n 0x42 → exec (.getCert h k) s = .next s) ∧ (¬ Turn x n 0x43 → exec (.extend h k) s = .next s) ∧
    (Turn x n 0x41 → n = 2 → OnHalf (.attest h k) h s (fun y => Ended n 0x40 y ∧ y.mem = x.mem)) ∧
    (Turn x n 0x50 → 1 ≤ n → OnHalf (.fwStage h k) h s (fun y => Ended n 0x40 y ∧ y.mem = x.mem)) ∧
    (Turn x n 0x40 → i < 8 → OnHalf (.getMeas h k) h s (fun y => Ended n 0 y ∧ y.mem = x.mem ∧
      (∀ w, w < 12 → y.reg (Reg.stwMbxRsp n w) = x.reg (Reg.secMs i w)) ∧
      y.reg (Reg.stwMbxRsp n 12) = x.reg (Reg.secMsCnt i))) ∧
    (Turn x n 0x40 → 8 ≤ i → OnHalf (.getMeas h k) h s (fun y => Ended n 0x41 y ∧ y.mem = x.mem)) ∧
    (Turn x n 0x41 → n < 2 → x.signs = false → OnHalf (.attest h k) h s (fun y => Ended n 0x42 y ∧ y.mem = x.mem)) ∧
    (∀ a, Turn x n 0x41 → n < 2 → x.signs = true → sp6 i 560 = some a → OnHalf (.attest h k) h s (fun y => Ended n 0 y ∧
      (∃ g : Bytes, g.length = 96 ∧ rdBytes y.mem a 560 =
        bytesOf [0x4C, 0x52, 0x4E, 0x51, 1, 0, halfNum x.self, x.lcs, bitNat x.debugOpen, x.debugScope, 0, 0] ++
        leBytes 4 x.sec.fwSvn ++ x.argBytes n 1 8 ++ x.msCounts ++ (List.range 8).flatMap x.msBytes ++ g) ∧
      ∀ b, b < a ∨ a + 560 ≤ b → rdByte y.mem b = rdByte x.mem b)) ∧
    (∀ c a, Turn x n 0x42 → n < 2 → x.chain = some c → sp6 i c.length = some a → c.length ≤ x.arg n 1 →
      OnHalf (.getCert h k) h s (fun y => Ended n 0 y ∧ y.reg (Reg.stwMbxRsp n 0) = BitVec.ofNat 32 c.length ∧
        rdBytes y.mem a c.length = c)) ∧
    (Turn x n 0x42 → n < 2 → x.chain = none → OnHalf (.getCert h k) h s (fun y => Ended n 0x43 y ∧ y.mem = x.mem)) ∧
    (Turn x n 0x43 → x.sec.tampered = false → OnHalf (.extend h k) h s (fun y => Ended n 0 y ∧
      y.msBytes 7 = sha384 (x.msBytes 7 ++ x.argBytes n 0 12) ∧ y.reg (Reg.secMsCnt 7) = x.reg (Reg.secMsCnt 7) + 1#32 ∧
      ∀ j, j < 7 → y.msBytes j = x.msBytes j)) ∧
    (∀ a, Turn x n 0x50 → n = 0 → sp6 i (x.arg n 1) = some a → OnHalf (.fwStage h k) h s (fun y => Ended n 0 y ∧
      rdBytes y.mem (flashBase + (if x.rbit Reg.secStatus 17 then 0 else 0x800000)) (x.arg n 1) = rdBytes x.mem a (x.arg n 1)))

/-- The life cycle moves by its commands alone: PROVISION from BLANK, CERT_WRITE once, TAKE_OWNERSHIP of the next of four slots,
OWNER_ACTION by a verified token, SCRAP by its confirmation; a token that does not verify is counted where it asked for
debug (R588 to R595). The model's choices: the order inside a transition (log 63). -/
def Obligations.TheLifeCycleMovesByItsCommands : Prop :=
  ∀ (h : HalfId) (k : BitVec 2) (s : State), k = 0#2 → (s.half h).pci.held = [] →
    let x := s.half h
    let i := x.arg 0 0
    let same := fun (y : Half) => y.sec.otp = x.sec.otp ∧ y.mem = x.mem
    (Turn x 0 0x48 → x.lcs ≠ 0 → OnHalf (.provision h k) h s (fun y => Ended 0 0x47 y ∧ same y)) ∧
    (∀ a b, Turn x 0 0x48 → x.lcs = 0 → sp6 i 128 = some a → sp6 (x.arg 0 1) 96 = some b → OnHalf (.provision h k) h s (fun y =>
      Ended 0 0 y ∧ y.rbit Reg.pciCtrl 0 = false ∧ ∃ pub : Bytes, pub.length = 96 ∧ rdBytes y.mem b 96 = pub ∧
        y.sec.otp = { x.sec.otp with optA := rdBytes x.mem a 128, optB := rdBytes x.mem a 128, lcs := 1, key := some pub })) ∧
    (Turn x 0 0x49 → x.lcs ≠ 1 ∨ x.sec.otp.chain.isSome = true → OnHalf (.certWrite h k) h s (fun y => Ended 0 0x47 y ∧ same y)) ∧
    (∀ a, Turn x 0 0x49 → x.lcs = 1 → x.sec.otp.chain = none → x.arg 0 1 ≤ 16384 → sp6 i (x.arg 0 1) = some a →
      OnHalf (.certWrite h k) h s (fun y => Ended 0 0 y ∧
        y.sec.otp = { x.sec.otp with chain := some (sha384 (rdBytes x.mem a (x.arg 0 1)), x.arg 0 1) } ∧
        rdBytes y.mem (flashBase + 0x1000000) (x.arg 0 1) = rdBytes x.mem a (x.arg 0 1))) ∧
    (Turn x 0 0x4A → x.lcs ≠ 1 → OnHalf (.takeOwnership h k) h s (fun y => Ended 0 0x47 y ∧ same y)) ∧
    (Turn x 0 0x4A → x.lcs = 1 → 4 ≤ x.sec.otp.owners.length → OnHalf (.takeOwnership h k) h s (fun y => Ended 0 0x46 y ∧ same y)) ∧
    (∀ a, Turn x 0 0x4A → x.lcs = 1 → x.sec.otp.owners.length < 4 → sp6 i 160 = some a → OnHalf (.takeOwnership h k) h s (fun y =>
      Ended 0 0 y ∧ y.sec.otp = { x.sec.otp with
        owners := x.sec.otp.owners ++ [rdBytes x.mem a 160], owner := some x.sec.otp.owners.length, lcs := 2 } ∧
      y.rbit Reg.pciCtrl 0 = false ∧ y.debugOpen = false)) ∧
    (Turn x 0 0x4B → OnHalf (.getNonce h k) h s (fun y => Ended 0 0 y ∧ same y ∧ y.rbit Reg.secStatus 18 = false ∧
      ∃ n : Bytes, n.length = 48 ∧ y.sec.nonce = some n ∧
        ∀ w, w < 12 → y.reg (Reg.stwMbxRsp 0 w) = BitVec.ofNat 32 (leAt n (4 * w) 4))) ∧
    (Turn x 0 0x4C → x.lcs ≠ 2 → OnHalf (.ownerAction h k) h s (fun y => Ended 0 0x47 y ∧ same y)) ∧
    (Turn x 0 0x4C → x.lcs = 2 → x.locked = true → OnHalf (.ownerAction h k) h s (fun y => Ended 0 0x44 y ∧ same y)) ∧
    (∀ a, Turn x 0 0x4C → x.lcs = 2 → x.locked = false → sp6 i 168 = some a →
      let tok := rdBytes x.mem a 72
      let good := x.tokenOk tok (rdBytes x.mem (a + 72) 96) = true
      (¬ good → OnHalf (.ownerAction h k) h s (fun y => Ended 0 0x45 y ∧ y.sec = { x.sec with nonce := none } ∧
        y.fails = (if leAt tok 7 1 = 1 then min 255 (x.fails + 1) else x.fails))) ∧
      (good → leAt tok 7 1 = 1 → OnHalf (.ownerAction h k) h s (fun y => Ended 0 0 y ∧ y.debugOpen = true ∧
        y.debugScope = leAt tok 0x40 4 % 16 ∧ y.fails = 0 ∧ y.sec = { x.sec with nonce := none })) ∧
      (good → leAt tok 7 1 = 2 → OnHalf (.ownerAction h k) h s (fun y => Ended 0 0 y ∧
        y.sec.otp = { x.sec.otp with lcs := 3 })) ∧
      (good → leAt tok 7 1 = 3 → OnHalf (.ownerAction h k) h s (fun y => Ended 0 0 y ∧
        y.sec.otp = { x.sec.otp with lcs := 1, owner := none })) ∧
      (good → leAt tok 7 1 = 4 → OnHalf (.ownerAction h k) h s (fun y => Ended 0 0 y ∧
        y.sec.otp = { x.sec.otp with lcs := 4, key := none }))) ∧
    (Turn x 0 0x4D → x.lcs ≠ 2 → OnHalf (.unlockPwd h k) h s (fun y => Ended 0 0x47 y ∧ same y)) ∧
    (Turn x 0 0x4E → OnHalf (.debugClose h k) h s (fun y => Ended 0 0 y ∧ y.debugOpen = false ∧ y.sec = x.sec)) ∧
    (Turn x 0 0x4F → x.lcs = 2 ∨ x.lcs = 4 → OnHalf (.scrap h k) h s (fun y => Ended 0 0x47 y ∧ same y)) ∧
    (Turn x 0 0x4F → x.lcs ≠ 2 → x.lcs ≠ 4 → i ≠ 0x5C2A9D11 → OnHalf (.scrap h k) h s (fun y => Ended 0 0x41 y ∧ same y)) ∧
    (Turn x 0 0x4F → x.lcs ≠ 2 → x.lcs ≠ 4 → i = 0x5C2A9D11 → OnHalf (.scrap h k) h s (fun y => Ended 0 0 y ∧
      y.sec.otp = { x.sec.otp with lcs := 4, key := none } ∧ y.rbit Reg.pciCtrl 0 = false ∧ y.debugOpen = false))

/-- UNLOCK_PWD in OWNED, outside a wait and below 32 failures: LOCKED when NO_PWD is set; a password whose digest with the
serial is PWD_HASH opens debug with SCOPE = ARG2 AND PWD_SCOPE and clears FAILS; another is counted (R594, R595). -/
def Obligations.PasswordsOpenDebugByTheirDigest : Prop :=
  ∀ (h : HalfId) (k : BitVec 2) (o : Bytes) (a : Nat) (s : State),
    let x := s.half h
    let n := x.arg 0 1
    let digest := sha384 (x.serial ++ rdBytes x.mem a n)
    k = 0#2 → Turn x 0 0x4D → x.lcs = 2 → x.ownerRec = some o → sp6 (x.arg 0 0) n = some a → 8 ≤ n → n ≤ 64 →
    x.locked = false → x.fails < 32 →
    (natBit (leAt o 144 4) 0 = true → OnHalf (.unlockPwd h k) h s (fun y => Ended 0 0x44 y ∧ y.sec = x.sec ∧ y.mem = x.mem ∧
      y.debugOpen = x.debugOpen ∧ y.fails = x.fails)) ∧
    (natBit (leAt o 144 4) 0 = false → digest = (o.drop 96).take 48 → OnHalf (.unlockPwd h k) h s (fun y => Ended 0 0 y ∧
      y.debugOpen = true ∧ y.debugScope = x.arg 0 2 &&& (leAt o 148 4 % 16) ∧ y.fails = 0 ∧ y.sec = x.sec)) ∧
    (natBit (leAt o 144 4) 0 = false → digest ≠ (o.drop 96).take 48 → OnHalf (.unlockPwd h k) h s (fun y => Ended 0 0x45 y ∧
      y.debugOpen = x.debugOpen ∧ y.debugScope = x.debugScope ∧ y.fails = x.fails + 1 ∧ y.sec = x.sec))

/-! ## SPDM, the TAP and tamper (R580 to R584, R590 to R600) -/

/-- The responder answers each request with its message and changes nothing else but what it draws at random (R582 to R584).
The model's choices: formats from DSP0274 (log 65). -/
def Obligations.TheSpdmResponderAnswers : Prop :=
  ∀ (h : HalfId) (slot index : BitVec 8) (off len : BitVec 16) (nonce : Bytes) (s : State),
    let x := s.half h
    let tells := fun (y : Half) (bs : Bytes) => y = { x with out := .spdm bs :: x.out }
    let draws := fun (y : Half) (bs : Bytes) => y = { x with out := .spdm bs :: x.out, free := y.free }
    OnHalf (.getVersion h) h s (fun y => tells y [0x10#8, 0x04#8, 0#8, 0#8, 0#8, 1#8, 0#8, 0x12#8]) ∧
    OnHalf (.getCapabilities h) h s (fun y => tells y ([0x12#8, 0x61#8, 0#8, 0#8, 0#8, 21#8, 0#8, 0#8] ++ leBytes 4 0x16 ++
      leBytes 4 4096 ++ leBytes 4 4096)) ∧
    OnHalf (.negotiateAlgorithms h) h s (fun y => tells y ([0x12#8, 0x63#8, 0#8, 0#8] ++ leBytes 2 36 ++ [1#8, 0#8] ++ leBytes 4 4 ++
      leBytes 4 0x80 ++ leBytes 4 2 ++ zeros 16)) ∧
    (x.chain = none → OnHalf (.getDigests h) h s (fun y => tells y [0x12#8, 0x01#8, 0#8, 0#8]) ∧
      (slot = 0#8 → OnHalf (.getCertificate h slot off len) h s (fun y => tells y [0x12#8, 0x7F#8, 5#8, 0#8]) ∧
        OnHalf (.challenge h slot nonce) h s (fun y => tells y [0x12#8, 0x7F#8, 5#8, 0#8]))) ∧
    (slot ≠ 0#8 → OnHalf (.getCertificate h slot off len) h s (fun y => tells y [0x12#8, 0x7F#8, 1#8, 0#8]) ∧
      OnHalf (.challenge h slot nonce) h s (fun y => tells y [0x12#8, 0x7F#8, 1#8, 0#8])) ∧
    (∀ c, x.chain = some c →
      OnHalf (.getDigests h) h s (fun y => tells y ([0x12#8, 0x01#8, 0#8, 1#8] ++ sha384 (spdmChain c))) ∧
      (slot = 0#8 → OnHalf (.getCertificate h slot off len) h s (fun y =>
        let p := ((spdmChain c).drop off.toNat).take len.toNat
        tells y ([0x12#8, 0x02#8, 0#8, 0#8] ++ leBytes 2 p.length ++ leBytes 2 ((spdmChain c).length - off.toNat - p.length) ++ p))) ∧
      (slot = 0#8 → x.signs = true → OnHalf (.challenge h slot nonce) h s (fun y => ∃ n g : Bytes, n.length = 32 ∧ g.length = 96 ∧
        draws y ([0x12#8, 0x03#8, 0#8, 1#8] ++ sha384 (spdmChain c) ++ n ++ zeros 2 ++ g)))) ∧
    (9 < index.toNat → index ≠ 255#8 → OnHalf (.getMeasurements h index nonce) h s (fun y => tells y [0x12#8, 0x7F#8, 1#8, 0#8])) ∧
    (index = 0#8 → OnHalf (.getMeasurements h index []) h s (fun y => ∃ n : Bytes, n.length = 32 ∧
      draws y ([0x12#8, 0x60#8, 9#8, 0#8, 0#8, 0#8, 0#8, 0#8] ++ n ++ zeros 2))) ∧
    (1 ≤ index.toNat → index.toNat ≤ 9 → OnHalf (.getMeasurements h index []) h s (fun y => ∃ n : Bytes, n.length = 32 ∧
      draws y ([0x12#8, 0x60#8, 0#8, 0#8, 1#8] ++ leBytes 3 (x.measBlock index.toNat).length ++ x.measBlock index.toNat ++ n ++
        zeros 2))) ∧
    (index.toNat ≤ 9 → nonce ≠ [] → x.signs = false → OnHalf (.getMeasurements h index nonce) h s (fun y =>
      tells y [0x12#8, 0x7F#8, 5#8, 0#8]))

/-- The TAP: boundary scan drives and samples the pads, IDCODE is always shifted out, FLASH_PROG programs and reads the boot
flash unless the half is SCRAPPED, CTRL_ACCESS and STW_HALT act only while debug with scope bit 0 is open (R439, R593). The
model's choices: a halted steward performs nothing (log 67), a command that cannot arise changes nothing (log 7). -/
def Obligations.TapInstructionsAct : Prop :=
  ∀ (h : HalfId) (drive enable : BitVec 64) (halted : Bool) (addr : BitVec 32) (data : Bytes) (v : Word) (s : State),
    let x := s.half h
    (x.lcs ≠ 4 → OnHalf (.extest h drive enable) h s (fun y =>
      y = { x with pins := { x.pins with scan := drive, scanEn := enable, extest := true } })) ∧
    (x.lcs = 4 → exec (.extest h drive enable) s = .next s ∧ exec (.samplePreload h drive) s = .next s ∧
      ∀ w, exec (.flashProg h w addr data) s = .next s) ∧
    OnHalf (.bypass h) h s (fun y => y.pins.extest = false ∧ y.mem = x.mem) ∧
    (x.tapPrivate = false → ∀ w (a : BitVec 40), exec (.ctrlAccess h w a v) s = .next s) ∧
    (x.tapPrivate = true → x.inRun = false → OnHalf (.ctrlAccess h true 0x90600004#40 v) h s (fun y =>
        y.reg Reg.edgExtgap = v ∧ OnlyRegs [Reg.edgExtgap] x y) ∧
      OnHalf (.ctrlAccess h false 0x90600004#40 v) h s (fun y =>
        y = { x with out := .tdo (leBytes 4 (x.reg Reg.edgExtgap).toNat) :: x.out })) ∧
    (x.pins.extest = false →
      OnHalf (.bypass h) h s (fun y => y = x) ∧
      (x.lcs ≠ 4 → OnHalf (.samplePreload h drive) h s (fun y => ∃ n, (∀ i, i < 64 → natBit n i = x.padSeen i) ∧
          y = { x with pins := { x.pins with scan := drive }, out := .tdo (leBytes 8 n) :: x.out }) ∧
        OnHalf (.flashProg h true addr data) h s (fun y => y = { x with mem := y.mem } ∧
          rdBytes y.mem (flashBase + addr.toNat) data.length = data ∧
          ∀ b, b < flashBase + addr.toNat ∨ flashBase + addr.toNat + data.length ≤ b → rdByte y.mem b = rdByte x.mem b) ∧
        OnHalf (.flashProg h false addr data) h s (fun y =>
          y = { x with out := .tdo (rdBytes x.mem (flashBase + addr.toNat) data.length) :: x.out })) ∧
      OnHalf (.idcode h) h s (fun y => y = { x with out := .tdo [0x67#8, 0x2B#8, 0xD3#8, 0x24#8] :: x.out }) ∧
      (x.tapPrivate = true → OnHalf (.stwHalt h halted) h s (fun y => y = { x with sys := { x.sys with stwHalt := halted } })) ∧
      (x.tapPrivate = false → OnHalf (.stwHalt h halted) h s (fun y => y = x)))

/-- A sensor that is enabled and trips is recorded: the nonce is void, debug closed, the host shut out, every measurement
slot zero and secure memory wiped; the lid switch reaches both halves; waits and nonces expire; the steward alone sets LOCK
(R580, R590, R595 to R599). The model's choices: debug closes in every state (log 63), a command that cannot arise changes
nothing (log 7). -/
def Obligations.TamperClosesTheHalf : Prop :=
  ∀ (h : HalfId) (m : Master) (sensors : List Sensor) (v : Word) (s : State),
    let x := s.half h
    let shut := fun (y : Half) => y.sec.nonce = none ∧ y.sec.tampered = true ∧ y.debugOpen = false ∧
      y.rbit Reg.pciCtrl 0 = false ∧ y.rbit Reg.secStatus 18 = true ∧ y.rbit Reg.rstCause 7 = true ∧
      (∀ k, k < 8 → y.msBytes k = zeros 48 ∧ y.reg (Reg.secMsCnt k) = 0#32)
    (.lid ∉ sensors → (∀ i ∈ sensors, x.rbit Reg.secTamperCfg (sensorBit i) = false) →
      exec (.tamperTrip h sensors) s = .next s) ∧
    (.lid ∉ sensors → (∃ i ∈ sensors, x.rbit Reg.secTamperCfg (sensorBit i) = true) →
      OnHalf (.tamperTrip h sensors) h s (fun y => shut y ∧
        ∀ i ∈ sensors, x.rbit Reg.secTamperCfg (sensorBit i) = true → y.rbit Reg.secTamperStat (sensorBit i) = true)) ∧
    (.lid ∈ sensors → s.h0.rbit Reg.secTamperCfg 3 = true → s.h1.rbit Reg.secTamperCfg 3 = true →
      Answers (.tamperTrip h sensors) s (fun t => ∀ h, shut (t.half h) ∧ (t.half h).rbit Reg.secTamperStat 3 = true)) ∧
    OnHalf (.lockoutExpiry h) h s (fun y => y.rfld Reg.secLockout 15 17 = 0 ∧ y.rfld Reg.secLockout 0 15 = x.rfld Reg.secLockout 0 15 ∧
      OnlyRegs [Reg.secLockout] x y) ∧
    OnHalf (.nonceExpiry h) h s (fun y => y = { x with sec := { x.sec with nonce := none } }) ∧
    (wbit v 0 = true → OnHalf (.secLock h .stw v) h s (fun y => y.rbit Reg.secCtrl 0 = true ∧ OnlyRegs [Reg.secCtrl] x y)) ∧
    (Served s h m → m ≠ .stw → OnHalf (.secLock h m v) h s (fun y => y.regs = x.regs ∧ y.sec = x.sec))

/-- A TAMPER reset sets every measurement slot to 48 zero bytes and every count to 0; until the next reset of reach Half or
wider no digest extends a slot, and a report shows what stands there (R580). -/
def Obligations.TamperZeroesTheSlotsUntilAReset : Prop :=
  ∀ (h : HalfId) (k : BitVec 2) (sensors : List Sensor) (s : State),
    let x := s.half h
    (.lid ∉ sensors → (∃ i ∈ sensors, x.rbit Reg.secTamperCfg (sensorBit i) = true) →
      OnHalf (.tamperTrip h sensors) h s (fun y => y.sec.tampered = true ∧
        ∀ j, j < 8 → y.msBytes j = zeros 48 ∧ y.reg (Reg.secMsCnt j) = 0#32)) ∧
    (x.sec.tampered = true → ∀ j d, x.extendMs j d = x) ∧
    (x.sec.tampered = true → Turn x k.toNat 0x43 → OnHalf (.extend h k) h s (fun y => Ended k.toNat 0 y ∧ y.sec = x.sec ∧
      ∀ j, j < 8 → y.msBytes j = x.msBytes j ∧ y.reg (Reg.secMsCnt j) = x.reg (Reg.secMsCnt j))) ∧
    (Turn x k.toNat 0x40 → x.arg k.toNat 0 < 8 → x.msBytes (x.arg k.toNat 0) = zeros 48 → x.reg (Reg.secMsCnt (x.arg k.toNat 0)) = 0#32 →
      OnHalf (.getMeas h k) h s (fun y => ∀ w, w < 13 → y.reg (Reg.stwMbxRsp k.toNat w) = 0#32)) ∧
    Answers .modRst s (fun t => ∀ h, (t.half h).sec.tampered = false ∧
      ∀ j, j < 8 → (t.half h).msBytes j = zeros 48 ∧ (t.half h).reg (Reg.secMsCnt j) = 0#32)

/-! ## The module as a whole -/

/-- A step takes the command at the front of the queue and runs it on the machine with the queue's rest; with no command
waiting a cycle of the clocks passes. -/
def Obligations.StepRunsTheFrontCommand : Prop :=
  (∀ (c : Instr) (rest : List Instr) (s : State), step { s with pending := c :: rest } = exec c { s with pending := rest }) ∧
  (∀ (c : Instr) (s : State), step (s.withCommand c) = exec c s) ∧
  (∀ s : State, s.pending = [] → step s = .next s.idleTick)

/-- Every command completes, and none touches the queue: each step takes exactly the front command away. The model's
choices: commands that cannot arise change nothing (log 7). -/
def Obligations.EveryCommandCompletesAndKeepsTheQueue : Prop :=
  ∀ (c : Instr) (s : State), ∃ t, exec c s = .next t ∧ t.pending = s.pending

/-- Every step keeps the memories of both halves in their canonical form and each half in its place. -/
def Obligations.StepsKeepMemoriesCanonical : Prop :=
  ∀ s t : State, s.wf = true → step s = .next t → t.wf = true

/-- After reset the queue and the memories are empty and in canonical form, no image is loaded, no run in progress, the
sequencers halted and the engines idle, the release sequence of the POR before both halves (R42, R186, R206, R558, R564).
The model's choices: internal state without a reset value (log 76). -/
def Obligations.ResetLeavesTheModuleEmpty : Prop :=
  State.reset.wf = true ∧ State.reset.pending = [] ∧ ∀ h : HalfId,
    let x := State.reset.half h
    x.self = h ∧ x.mem = [] ∧ x.run.state = .unloaded ∧ x.run.loaded = none ∧ x.inRun = false ∧ x.seq.exec = .halted ∧
    x.asr.active = false ∧ x.fab.live = 0 ∧ x.rbit Reg.rstCause 0 = true ∧ x.rbit Reg.pciCtrl 0 = false ∧
    x.rfld Reg.stwBoot 16 4 = 0 ∧ x.sys.booting = true ∧ x.sys.fallow = none ∧ x.sec.otp.lcs = 0 ∧ x.out = []

/-! ## Statements of several parts -/

/-- Writes and reads of HBM, of the alias windows and of a register (R17, R42, R214, R235). -/
def Obligations.MemoriesAndRegistersAreReadAndWritten : Prop :=
  Sys2Proof.Claims.MemoryWriteStoresItsBytes ∧
  Sys2Proof.Claims.MemoryReadAnswersTheBytes ∧
  Sys2Proof.Claims.AliasWritesSetAndClearBits ∧
  Sys2Proof.Claims.RegisterWriteSetsTheRegister

/-- What the instructions of a Boolean processor write. -/
def Obligations.ProcessorInstructionsWriteTheirResult : Prop :=
  Sys2Proof.Claims.EvalTrigAssertWriteTheResult ∧ Sys2Proof.Claims.EvalcWritesOnlyWhenItsConditionHolds ∧ Sys2Proof.Claims.NopWritesNothing

/-- What a switch instruction moves, and what a write-back ends. -/
def Obligations.SwitchMovesAndWriteBacks : Prop :=
  Sys2Proof.Claims.SwitchInstructionMovesABit ∧ Sys2Proof.Claims.WriteBackEndsPendingCorrections

/-- The half bridge and the fault registers of the exchange. -/
def Obligations.BridgeAndExchangeFaults : Prop :=
  Sys2Proof.Claims.BridgeReceiveActsOnTheCheckBits ∧ Sys2Proof.Claims.BridgeUpFollowsTrainingAndLoss ∧ Sys2Proof.Claims.FaultStatusWritesClear

/-- The life of a bundle. -/
def Obligations.BundlesTrainAreLostAndComeBack : Prop :=
  Sys2Proof.Claims.BundleTrainingPassesItsStates ∧ Sys2Proof.Claims.BundleLossLeadsToDownAndBack

/-- What a bundle's blocks and packets do. -/
def Obligations.BlocksAndPacketsOfABundle : Prop :=
  Sys2Proof.Claims.TrainBlocksAreCheckedAndTaken ∧
  Sys2Proof.Claims.BlocksCarryWindowsAndBadOnesStopThem ∧
  Sys2Proof.Claims.PacketsAreTakenInOrderAndAcknowledged ∧
  Sys2Proof.Claims.TheBlockSentIsTheBlockRead

/-- The sequencer's arithmetic, time sources, NOP and HALT. -/
def Obligations.SequencerComputesInItsRegisters : Prop :=
  Sys2Proof.Claims.RegisterArithmeticWritesItsResult ∧
  Sys2Proof.Claims.ImmediateArithmeticWritesItsResult ∧
  Sys2Proof.Claims.TimeSourcesNopAndHalt ∧
  Sys2Proof.Claims.InstructionsNotAtThePcDoNothing

/-- The sequencer's loads, stores and register accesses. -/
def Obligations.SequencerLoadsStoresAndRegisterAccesses : Prop :=
  Sys2Proof.Claims.LoadsAndStoresUseScratchpadZero ∧ Sys2Proof.Claims.RegisterAccessesOfTheSequencer

/-- The sequencer's branches and jumps. -/
def Obligations.SequencerBranchesAndJumps : Prop :=
  Sys2Proof.Claims.BranchesMoveThePc ∧ Sys2Proof.Claims.JumpsMoveThePc

/-- The sequencer's run control. -/
def Obligations.RunsAreStartedHeldAndStopped : Prop :=
  Sys2Proof.Claims.GoRuncRuntReleaseAHeldRun ∧ Sys2Proof.Claims.HoldAndStopAskTheRun

/-- The sequencer's hold over domains, engines, checkpoints and fallow. -/
def Obligations.DomainsEnginesCheckpointsAndFallow : Prop :=
  Sys2Proof.Claims.DomenSwitchesADomainInHeld ∧ Sys2Proof.Claims.EngineCheckpointAndFallowInstructions

/-- The sequencer's events. -/
def Obligations.EventsAreActedOnAndWaitedFor : Prop :=
  Sys2Proof.Claims.EventInstructionsActOnTheirBits ∧ Sys2Proof.Claims.WaiteTakesTheLowestEvent

/-- Idle decisions and stall points. -/
def Obligations.IdleStepsAndStallPoints : Prop :=
  Sys2Proof.Claims.IdleDecisionsCountEightSteps ∧ Sys2Proof.Claims.StallPointsCountAndHold

/-- The sequencer's control register, its fault, its timer and the domain descriptors. -/
def Obligations.SequencerControlFaultsAndDescriptors : Prop :=
  Sys2Proof.Claims.SequencerControlBitsAct ∧ Sys2Proof.Claims.SequencerFaultTimerAndDescriptors

/-- Accesses of the design to its memories, the patrol, the error registers and the memory testers. -/
def Obligations.DesignMemoriesAndTheirErrors : Prop :=
  Sys2Proof.Claims.DesignMemoryAccessesReadAndWrite ∧ Sys2Proof.Claims.PatrolAndErrorStatus ∧ Sys2Proof.Claims.MemoryTestersRunAndReport

/-- Doorbells, the registers of queue pairs and their entries. -/
def Obligations.QueueRegistersAndDoorbells : Prop :=
  Sys2Proof.Claims.DoorbellsMoveTheTailOrAreRefused ∧ Sys2Proof.Claims.QueueRegistersTakeTheirValues ∧ Sys2Proof.Claims.QueueEntriesAreTaken

/-- How transactions run and end. -/
def Obligations.TransactionsRunAndEnd : Prop :=
  Sys2Proof.Claims.TransactionsRunToTheirEntries ∧ Sys2Proof.Claims.TransactionsEndEarly

/-- The capture, playback and trigger engines. -/
def Obligations.EnginesAreArmedDriveAndEnd : Prop :=
  Sys2Proof.Claims.EnginesAreArmedAndAborted ∧ Sys2Proof.Claims.EnginesDriveWriteAndRead

/-- Checkpoints and the journal's records. -/
def Obligations.CheckpointsAndAcceptedRecords : Prop :=
  Sys2Proof.Claims.CheckpointsPassTheirPhases ∧ Sys2Proof.Claims.ConfirmedRecordsAreAccepted

/-- Recovery and the comparison of signatures. -/
def Obligations.RecoveryAndSignatures : Prop :=
  Sys2Proof.Claims.RecoveryRestoresAndReplays ∧ Sys2Proof.Claims.SignaturesAreCompared

/-- The loss and replacement of a half, and its export. -/
def Obligations.HalvesAreLostReplacedAndExported : Prop :=
  Sys2Proof.Claims.HalvesAreDiagnosedLostAndReplaced ∧ Sys2Proof.Claims.ExportsAndImportsReportTheirEnd

/-- How the adapter fabric is loaded, released and aborted. -/
def Obligations.FabricLoadsReleasesAndAborts : Prop :=
  Sys2Proof.Claims.FabricLoadsHoldCheckAndCommit ∧ Sys2Proof.Claims.FabricReleasesAndAborts

/-- Long lines, oscillators and the embedded flash of the fabric. -/
def Obligations.LongLinesOscillatorsAndFlash : Prop :=
  Sys2Proof.Claims.LongLinesAndOscillators ∧ Sys2Proof.Claims.FlashCommandsProgramEraseAndRead

/-- The fabric's ports to the rest of the half, and its logic. -/
def Obligations.FabricPortsAndWindow : Prop :=
  Sys2Proof.Claims.FabricPortsAct ∧ Sys2Proof.Claims.FabricReachesItsWindow ∧ Sys2Proof.Claims.FabricLogicFollowsItsConfiguration

/-- The pins' registers and inputs. -/
def Obligations.PinsDriveAndSense : Prop :=
  Sys2Proof.Claims.PinRegistersAct ∧ Sys2Proof.Claims.PinInputsAreSynchronisedAndDebounced
end

