-- ==== Sys2Proof/Laws/Sparse.lean ====
section
/-!
SUPPORT. Laws/Sparse.lean: reading after writing a sparse table, and that writing keeps its canonical form.
-/

namespace Sys2Proof.Machine

/-! ## Reads after writes -/

theorem lookup_erase_self {α : Type} (m : SMap α) (i : Nat) : lookup (erase m i) i = none := by
  induction m with
  | nil => rfl
  | cons e m ih =>
    obtain ⟨k, v⟩ := e
    by_cases h : i = k
    · simpa [erase, h] using h ▸ ih
    · simp [erase, lookup, h, ih]

theorem lookup_erase_ne {α : Type} (m : SMap α) {i j : Nat} (hij : i ≠ j) : lookup (erase m j) i = lookup m i := by
  induction m with
  | nil => rfl
  | cons e m ih =>
    obtain ⟨k, v⟩ := e
    by_cases hj : j = k
    · subst hj; simp [erase, lookup, ih, hij]
    · by_cases hi : i = k <;> simp [erase, lookup, hj, hi, ih]

theorem lookup_insert_self {α : Type} (m : SMap α) (i : Nat) (v : α) : lookup (insert m i v) i = some v := by
  induction m with
  | nil => simp [insert, lookup]
  | cons e m ih =>
    obtain ⟨k, w⟩ := e
    by_cases h1 : i < k
    · simp [insert, lookup, h1]
    · by_cases h2 : i = k <;> simp [insert, lookup, h1, h2, ih]

theorem lookup_insert_ne {α : Type} (m : SMap α) {i j : Nat} (v : α) (hij : i ≠ j) :
    lookup (insert m j v) i = lookup m i := by
  induction m with
  | nil => simp [insert, lookup, hij]
  | cons e m ih =>
    obtain ⟨k, w⟩ := e
    by_cases h1 : j < k
    · simp [insert, lookup, h1, hij]
    · by_cases h2 : j = k
      · subst h2; simp [insert, lookup, hij]
      · by_cases h3 : i = k <;> simp [insert, lookup, h1, h2, h3, ih]

@[simp] theorem sget_sput_self {α : Type} [DecidableEq α] (m : SMap α) (i : Nat) (d v : α) :
    sget (sput m i d v) i d = v := by
  unfold sget sput
  split
  · next h => simp [lookup_erase_self, h]
  · simp [lookup_insert_self]

theorem sget_sput_ne {α : Type} [DecidableEq α] (m : SMap α) {i j : Nat} (d d' v : α) (hij : i ≠ j) :
    sget (sput m j d' v) i d = sget m i d := by
  unfold sget sput
  split <;> simp [lookup_erase_ne, lookup_insert_ne, hij]

theorem lookup_keepKeys {α : Type} (p : Nat → Bool) (m : SMap α) (i : Nat) :
    lookup (keepKeys p m) i = if p i then lookup m i else none := by
  induction m with
  | nil => simp [keepKeys, lookup]
  | cons e m ih =>
    obtain ⟨k, v⟩ := e
    by_cases hk : p k <;> by_cases hi : i = k <;> simp_all [keepKeys, lookup]

theorem sget_keepKeys {α : Type} (p : Nat → Bool) (m : SMap α) (i : Nat) (d : α) :
    sget (keepKeys p m) i d = if p i then sget m i d else d := by
  by_cases h : p i <;> simp [sget, lookup_keepKeys, h]

/-! ## Canonical form -/

theorem sortedFrom_mono {α : Type} {m : SMap α} {a b : Nat} (h : b ≤ a) (hs : sortedFrom a m = true) :
    sortedFrom b m = true := by
  cases m with
  | nil => rfl
  | cons e m =>
    obtain ⟨k, v⟩ := e
    simp only [sortedFrom, Bool.and_eq_true, decide_eq_true_eq] at hs ⊢
    exact ⟨by omega, hs.2⟩

theorem sortedFrom_erase {α : Type} (m : SMap α) (i lo : Nat) (hs : sortedFrom lo m = true) :
    sortedFrom lo (erase m i) = true := by
  induction m generalizing lo with
  | nil => rfl
  | cons e m ih =>
    obtain ⟨k, v⟩ := e
    simp only [sortedFrom, Bool.and_eq_true, decide_eq_true_eq] at hs
    have hm := ih (k + 1) hs.2
    by_cases h : i = k
    · simp only [erase, h, if_true]; subst h; exact sortedFrom_mono (by omega) hm
    · simp [erase, h, sortedFrom, hs.1, hm]

theorem sortedFrom_insert {α : Type} (m : SMap α) (i : Nat) (v : α) (lo : Nat) (hlo : lo ≤ i) (hs : sortedFrom lo m = true) :
    sortedFrom lo (insert m i v) = true := by
  induction m generalizing lo with
  | nil => simp [insert, sortedFrom, hlo]
  | cons e m ih =>
    obtain ⟨k, w⟩ := e
    simp only [sortedFrom, Bool.and_eq_true, decide_eq_true_eq] at hs
    by_cases h1 : i < k
    · simp only [insert, h1, if_true, sortedFrom, Bool.and_eq_true, decide_eq_true_eq]; exact ⟨hlo, by omega, hs.2⟩
    · by_cases h2 : i = k
      · subst h2; simp [insert, sortedFrom, hlo, hs.2]
      · have := ih (k + 1) (by omega) hs.2
        simp [insert, h1, h2, sortedFrom, hs.1, this]

theorem sortedFrom_keepKeys {α : Type} (p : Nat → Bool) (m : SMap α) (lo : Nat) (hs : sortedFrom lo m = true) :
    sortedFrom lo (keepKeys p m) = true := by
  induction m generalizing lo with
  | nil => rfl
  | cons e m ih =>
    obtain ⟨k, v⟩ := e
    simp only [sortedFrom, Bool.and_eq_true, decide_eq_true_eq] at hs
    have hm := ih (k + 1) hs.2
    by_cases h : p k
    · simp [keepKeys, h, sortedFrom, hs.1, hm]
    · simp only [keepKeys, h]; exact sortedFrom_mono (by omega) hm

theorem all_erase {α : Type} (q : Nat × α → Bool) (m : SMap α) (i : Nat) (h : m.all q = true) : (erase m i).all q = true := by
  induction m with
  | nil => rfl
  | cons e m ih =>
    obtain ⟨k, v⟩ := e
    simp only [List.all_cons, Bool.and_eq_true] at h
    by_cases hk : i = k
    · simpa only [erase, hk, if_true] using hk ▸ ih h.2
    · simp only [erase, hk, if_false, List.all_cons, h.1, ih h.2, Bool.and_self]

theorem all_insert {α : Type} (q : Nat × α → Bool) (m : SMap α) (i : Nat) (v : α) (hq : q (i, v) = true)
    (h : m.all q = true) : (insert m i v).all q = true := by
  induction m with
  | nil => simp [insert, hq]
  | cons e m ih =>
    obtain ⟨k, w⟩ := e
    simp only [List.all_cons, Bool.and_eq_true] at h
    by_cases h1 : i < k
    · simp only [insert, h1, if_true, List.all_cons, hq, h.1, h.2, Bool.and_self]
    · by_cases h2 : i = k
      · subst h2; simp only [insert, h1, if_false, if_true, List.all_cons, hq, h.2, Bool.and_self]
      · simp only [insert, h1, h2, if_false, List.all_cons, h.1, ih h.2, Bool.and_self]

theorem all_keepKeys {α : Type} (q : Nat × α → Bool) (p : Nat → Bool) (m : SMap α) (h : m.all q = true) :
    (keepKeys p m).all q = true := by
  induction m with
  | nil => rfl
  | cons e m ih =>
    obtain ⟨k, v⟩ := e
    simp only [List.all_cons, Bool.and_eq_true] at h
    by_cases hk : p k
    · simp only [keepKeys, hk, if_true, List.all_cons, h.1, ih h.2, Bool.and_self]
    · simp only [keepKeys, hk]; exact ih h.2

end Sys2Proof.Machine
end

