-- ==== Sys2Proof/Laws/State.lean ====
section
/-!
SUPPORT. Laws/State.lean: what each update of the machine, of a half and of a register leaves in every field.
-/

namespace Sys2Proof.Machine

/-! ## Halves of the machine -/

@[simp] theorem half_h0 (s : State) : s.half .h0 = s.h0 := rfl
@[simp] theorem half_h1 (s : State) : s.half .h1 = s.h1 := rfl
@[simp] theorem otherHalf_h0 : otherHalf .h0 = .h1 := rfl
@[simp] theorem otherHalf_h1 : otherHalf .h1 = .h0 := rfl
@[simp] theorem otherHalf_otherHalf (h : HalfId) : otherHalf (otherHalf h) = h := by cases h <;> rfl
@[simp] theorem otherHalf_ne (h : HalfId) : otherHalf h ≠ h := by cases h <;> decide

@[simp] theorem setHalf_half (s : State) (h : HalfId) (x : Half) : (s.setHalf h x).half h = x := by cases h <;> rfl
@[simp] theorem setHalf_half_other (s : State) (h : HalfId) (x : Half) :
    (s.setHalf h x).half (otherHalf h) = s.half (otherHalf h) := by cases h <;> rfl
@[simp] theorem setHalf_pending (s : State) (h : HalfId) (x : Half) : (s.setHalf h x).pending = s.pending := by
  cases h <;> rfl

@[simp] theorem upd_half (s : State) (h : HalfId) (f : Half → Half) : (s.upd h f).half h = f (s.half h) := by cases h <;> rfl
@[simp] theorem upd_half_other (s : State) (h : HalfId) (f : Half → Half) :
    (s.upd h f).half (otherHalf h) = s.half (otherHalf h) := by cases h <;> rfl
@[simp] theorem upd_other_half (s : State) (h : HalfId) (f : Half → Half) :
    (s.upd (otherHalf h) f).half h = s.half h := by cases h <;> rfl
@[simp] theorem upd_pending (s : State) (h : HalfId) (f : Half → Half) : (s.upd h f).pending = s.pending := by
  cases h <;> rfl
@[simp] theorem upd_upd (s : State) (h : HalfId) (f g : Half → Half) : (s.upd h f).upd h g = s.upd h (fun x => g (f x)) := by
  cases h <;> rfl
@[simp] theorem upd_id (s : State) (h : HalfId) : s.upd h (fun x => x) = s := by cases h <;> rfl

@[simp] theorem both_half (s : State) (h : HalfId) (f : Half → Half) : (s.both f).half h = f (s.half h) := by cases h <;> rfl
@[simp] theorem both_pending (s : State) (f : Half → Half) : (s.both f).pending = s.pending := rfl

@[simp] theorem withPending_half (s : State) (q : List Instr) (h : HalfId) : ({ s with pending := q } : State).half h = s.half h := by
  cases h <;> rfl

/-! ## Fields of a half -/

@[simp] theorem setReg_self (x : Half) (off : Nat) (v : Word) : (x.setReg off v).self = x.self := rfl
@[simp] theorem setReg_latch (x : Half) (off : Nat) (v : Word) : (x.setReg off v).latch = x.latch := rfl
@[simp] theorem setReg_mem (x : Half) (off : Nat) (v : Word) : (x.setReg off v).mem = x.mem := rfl
@[simp] theorem setReg_ar (x : Half) (off : Nat) (v : Word) : (x.setReg off v).ar = x.ar := rfl
@[simp] theorem setReg_bundle (x : Half) (off : Nat) (v : Word) : (x.setReg off v).bundle = x.bundle := rfl
@[simp] theorem setReg_run (x : Half) (off : Nat) (v : Word) : (x.setReg off v).run = x.run := rfl
@[simp] theorem setReg_seq (x : Half) (off : Nat) (v : Word) : (x.setReg off v).seq = x.seq := rfl
@[simp] theorem setReg_seqCopy (x : Half) (off : Nat) (v : Word) : (x.setReg off v).seqCopy = x.seqCopy := rfl
@[simp] theorem setReg_pci (x : Half) (off : Nat) (v : Word) : (x.setReg off v).pci = x.pci := rfl
@[simp] theorem setReg_mt (x : Half) (off : Nat) (v : Word) : (x.setReg off v).mt = x.mt := rfl
@[simp] theorem setReg_txe (x : Half) (off : Nat) (v : Word) : (x.setReg off v).txe = x.txe := rfl
@[simp] theorem setReg_eng (x : Half) (off : Nat) (v : Word) : (x.setReg off v).eng = x.eng := rfl
@[simp] theorem setReg_asr (x : Half) (off : Nat) (v : Word) : (x.setReg off v).asr = x.asr := rfl
@[simp] theorem setReg_ptm (x : Half) (off : Nat) (v : Word) : (x.setReg off v).ptm = x.ptm := rfl
@[simp] theorem setReg_fab (x : Half) (off : Nat) (v : Word) : (x.setReg off v).fab = x.fab := rfl
@[simp] theorem setReg_pins (x : Half) (off : Nat) (v : Word) : (x.setReg off v).pins = x.pins := rfl
@[simp] theorem setReg_trc (x : Half) (off : Nat) (v : Word) : (x.setReg off v).trc = x.trc := rfl
@[simp] theorem setReg_sys (x : Half) (off : Nat) (v : Word) : (x.setReg off v).sys = x.sys := rfl
@[simp] theorem setReg_sec (x : Half) (off : Nat) (v : Word) : (x.setReg off v).sec = x.sec := rfl
@[simp] theorem setReg_ctl (x : Half) (off : Nat) (v : Word) : (x.setReg off v).ctl = x.ctl := rfl
@[simp] theorem setReg_out (x : Half) (off : Nat) (v : Word) : (x.setReg off v).out = x.out := rfl
@[simp] theorem setReg_free (x : Half) (off : Nat) (v : Word) : (x.setReg off v).free = x.free := rfl

@[simp] theorem setRFld_self (x : Half) (off lo n v : Nat) : (x.setRFld off lo n v).self = x.self := rfl
@[simp] theorem setRFld_latch (x : Half) (off lo n v : Nat) : (x.setRFld off lo n v).latch = x.latch := rfl
@[simp] theorem setRFld_mem (x : Half) (off lo n v : Nat) : (x.setRFld off lo n v).mem = x.mem := rfl
@[simp] theorem setRFld_ar (x : Half) (off lo n v : Nat) : (x.setRFld off lo n v).ar = x.ar := rfl
@[simp] theorem setRFld_bundle (x : Half) (off lo n v : Nat) : (x.setRFld off lo n v).bundle = x.bundle := rfl
@[simp] theorem setRFld_run (x : Half) (off lo n v : Nat) : (x.setRFld off lo n v).run = x.run := rfl
@[simp] theorem setRFld_seq (x : Half) (off lo n v : Nat) : (x.setRFld off lo n v).seq = x.seq := rfl
@[simp] theorem setRFld_seqCopy (x : Half) (off lo n v : Nat) : (x.setRFld off lo n v).seqCopy = x.seqCopy := rfl
@[simp] theorem setRFld_pci (x : Half) (off lo n v : Nat) : (x.setRFld off lo n v).pci = x.pci := rfl
@[simp] theorem setRFld_mt (x : Half) (off lo n v : Nat) : (x.setRFld off lo n v).mt = x.mt := rfl
@[simp] theorem setRFld_txe (x : Half) (off lo n v : Nat) : (x.setRFld off lo n v).txe = x.txe := rfl
@[simp] theorem setRFld_eng (x : Half) (off lo n v : Nat) : (x.setRFld off lo n v).eng = x.eng := rfl
@[simp] theorem setRFld_asr (x : Half) (off lo n v : Nat) : (x.setRFld off lo n v).asr = x.asr := rfl
@[simp] theorem setRFld_ptm (x : Half) (off lo n v : Nat) : (x.setRFld off lo n v).ptm = x.ptm := rfl
@[simp] theorem setRFld_fab (x : Half) (off lo n v : Nat) : (x.setRFld off lo n v).fab = x.fab := rfl
@[simp] theorem setRFld_pins (x : Half) (off lo n v : Nat) : (x.setRFld off lo n v).pins = x.pins := rfl
@[simp] theorem setRFld_trc (x : Half) (off lo n v : Nat) : (x.setRFld off lo n v).trc = x.trc := rfl
@[simp] theorem setRFld_sys (x : Half) (off lo n v : Nat) : (x.setRFld off lo n v).sys = x.sys := rfl
@[simp] theorem setRFld_sec (x : Half) (off lo n v : Nat) : (x.setRFld off lo n v).sec = x.sec := rfl
@[simp] theorem setRFld_ctl (x : Half) (off lo n v : Nat) : (x.setRFld off lo n v).ctl = x.ctl := rfl
@[simp] theorem setRFld_out (x : Half) (off lo n v : Nat) : (x.setRFld off lo n v).out = x.out := rfl
@[simp] theorem setRFld_free (x : Half) (off lo n v : Nat) : (x.setRFld off lo n v).free = x.free := rfl

@[simp] theorem setRBit_self (x : Half) (off i : Nat) (b : Bool) : (x.setRBit off i b).self = x.self := rfl
@[simp] theorem setRBit_latch (x : Half) (off i : Nat) (b : Bool) : (x.setRBit off i b).latch = x.latch := rfl
@[simp] theorem setRBit_mem (x : Half) (off i : Nat) (b : Bool) : (x.setRBit off i b).mem = x.mem := rfl
@[simp] theorem setRBit_ar (x : Half) (off i : Nat) (b : Bool) : (x.setRBit off i b).ar = x.ar := rfl
@[simp] theorem setRBit_bundle (x : Half) (off i : Nat) (b : Bool) : (x.setRBit off i b).bundle = x.bundle := rfl
@[simp] theorem setRBit_run (x : Half) (off i : Nat) (b : Bool) : (x.setRBit off i b).run = x.run := rfl
@[simp] theorem setRBit_seq (x : Half) (off i : Nat) (b : Bool) : (x.setRBit off i b).seq = x.seq := rfl
@[simp] theorem setRBit_seqCopy (x : Half) (off i : Nat) (b : Bool) : (x.setRBit off i b).seqCopy = x.seqCopy := rfl
@[simp] theorem setRBit_pci (x : Half) (off i : Nat) (b : Bool) : (x.setRBit off i b).pci = x.pci := rfl
@[simp] theorem setRBit_mt (x : Half) (off i : Nat) (b : Bool) : (x.setRBit off i b).mt = x.mt := rfl
@[simp] theorem setRBit_txe (x : Half) (off i : Nat) (b : Bool) : (x.setRBit off i b).txe = x.txe := rfl
@[simp] theorem setRBit_eng (x : Half) (off i : Nat) (b : Bool) : (x.setRBit off i b).eng = x.eng := rfl
@[simp] theorem setRBit_asr (x : Half) (off i : Nat) (b : Bool) : (x.setRBit off i b).asr = x.asr := rfl
@[simp] theorem setRBit_ptm (x : Half) (off i : Nat) (b : Bool) : (x.setRBit off i b).ptm = x.ptm := rfl
@[simp] theorem setRBit_fab (x : Half) (off i : Nat) (b : Bool) : (x.setRBit off i b).fab = x.fab := rfl
@[simp] theorem setRBit_pins (x : Half) (off i : Nat) (b : Bool) : (x.setRBit off i b).pins = x.pins := rfl
@[simp] theorem setRBit_trc (x : Half) (off i : Nat) (b : Bool) : (x.setRBit off i b).trc = x.trc := rfl
@[simp] theorem setRBit_sys (x : Half) (off i : Nat) (b : Bool) : (x.setRBit off i b).sys = x.sys := rfl
@[simp] theorem setRBit_sec (x : Half) (off i : Nat) (b : Bool) : (x.setRBit off i b).sec = x.sec := rfl
@[simp] theorem setRBit_ctl (x : Half) (off i : Nat) (b : Bool) : (x.setRBit off i b).ctl = x.ctl := rfl
@[simp] theorem setRBit_out (x : Half) (off i : Nat) (b : Bool) : (x.setRBit off i b).out = x.out := rfl
@[simp] theorem setRBit_free (x : Half) (off i : Nat) (b : Bool) : (x.setRBit off i b).free = x.free := rfl

@[simp] theorem setReg64_self (x : Half) (lo hi v : Nat) : (x.setReg64 lo hi v).self = x.self := rfl
@[simp] theorem setReg64_latch (x : Half) (lo hi v : Nat) : (x.setReg64 lo hi v).latch = x.latch := rfl
@[simp] theorem setReg64_mem (x : Half) (lo hi v : Nat) : (x.setReg64 lo hi v).mem = x.mem := rfl
@[simp] theorem setReg64_ar (x : Half) (lo hi v : Nat) : (x.setReg64 lo hi v).ar = x.ar := rfl
@[simp] theorem setReg64_bundle (x : Half) (lo hi v : Nat) : (x.setReg64 lo hi v).bundle = x.bundle := rfl
@[simp] theorem setReg64_run (x : Half) (lo hi v : Nat) : (x.setReg64 lo hi v).run = x.run := rfl
@[simp] theorem setReg64_seq (x : Half) (lo hi v : Nat) : (x.setReg64 lo hi v).seq = x.seq := rfl
@[simp] theorem setReg64_seqCopy (x : Half) (lo hi v : Nat) : (x.setReg64 lo hi v).seqCopy = x.seqCopy := rfl
@[simp] theorem setReg64_pci (x : Half) (lo hi v : Nat) : (x.setReg64 lo hi v).pci = x.pci := rfl
@[simp] theorem setReg64_mt (x : Half) (lo hi v : Nat) : (x.setReg64 lo hi v).mt = x.mt := rfl
@[simp] theorem setReg64_txe (x : Half) (lo hi v : Nat) : (x.setReg64 lo hi v).txe = x.txe := rfl
@[simp] theorem setReg64_eng (x : Half) (lo hi v : Nat) : (x.setReg64 lo hi v).eng = x.eng := rfl
@[simp] theorem setReg64_asr (x : Half) (lo hi v : Nat) : (x.setReg64 lo hi v).asr = x.asr := rfl
@[simp] theorem setReg64_ptm (x : Half) (lo hi v : Nat) : (x.setReg64 lo hi v).ptm = x.ptm := rfl
@[simp] theorem setReg64_fab (x : Half) (lo hi v : Nat) : (x.setReg64 lo hi v).fab = x.fab := rfl
@[simp] theorem setReg64_pins (x : Half) (lo hi v : Nat) : (x.setReg64 lo hi v).pins = x.pins := rfl
@[simp] theorem setReg64_trc (x : Half) (lo hi v : Nat) : (x.setReg64 lo hi v).trc = x.trc := rfl
@[simp] theorem setReg64_sys (x : Half) (lo hi v : Nat) : (x.setReg64 lo hi v).sys = x.sys := rfl
@[simp] theorem setReg64_sec (x : Half) (lo hi v : Nat) : (x.setReg64 lo hi v).sec = x.sec := rfl
@[simp] theorem setReg64_ctl (x : Half) (lo hi v : Nat) : (x.setReg64 lo hi v).ctl = x.ctl := rfl
@[simp] theorem setReg64_out (x : Half) (lo hi v : Nat) : (x.setReg64 lo hi v).out = x.out := rfl
@[simp] theorem setReg64_free (x : Half) (lo hi v : Nat) : (x.setReg64 lo hi v).free = x.free := rfl

@[simp] theorem countFld_self (x : Half) (off lo n k : Nat) : (x.countFld off lo n k).self = x.self := rfl
@[simp] theorem countFld_latch (x : Half) (off lo n k : Nat) : (x.countFld off lo n k).latch = x.latch := rfl
@[simp] theorem countFld_mem (x : Half) (off lo n k : Nat) : (x.countFld off lo n k).mem = x.mem := rfl
@[simp] theorem countFld_ar (x : Half) (off lo n k : Nat) : (x.countFld off lo n k).ar = x.ar := rfl
@[simp] theorem countFld_bundle (x : Half) (off lo n k : Nat) : (x.countFld off lo n k).bundle = x.bundle := rfl
@[simp] theorem countFld_run (x : Half) (off lo n k : Nat) : (x.countFld off lo n k).run = x.run := rfl
@[simp] theorem countFld_seq (x : Half) (off lo n k : Nat) : (x.countFld off lo n k).seq = x.seq := rfl
@[simp] theorem countFld_seqCopy (x : Half) (off lo n k : Nat) : (x.countFld off lo n k).seqCopy = x.seqCopy := rfl
@[simp] theorem countFld_pci (x : Half) (off lo n k : Nat) : (x.countFld off lo n k).pci = x.pci := rfl
@[simp] theorem countFld_mt (x : Half) (off lo n k : Nat) : (x.countFld off lo n k).mt = x.mt := rfl
@[simp] theorem countFld_txe (x : Half) (off lo n k : Nat) : (x.countFld off lo n k).txe = x.txe := rfl
@[simp] theorem countFld_eng (x : Half) (off lo n k : Nat) : (x.countFld off lo n k).eng = x.eng := rfl
@[simp] theorem countFld_asr (x : Half) (off lo n k : Nat) : (x.countFld off lo n k).asr = x.asr := rfl
@[simp] theorem countFld_ptm (x : Half) (off lo n k : Nat) : (x.countFld off lo n k).ptm = x.ptm := rfl
@[simp] theorem countFld_fab (x : Half) (off lo n k : Nat) : (x.countFld off lo n k).fab = x.fab := rfl
@[simp] theorem countFld_pins (x : Half) (off lo n k : Nat) : (x.countFld off lo n k).pins = x.pins := rfl
@[simp] theorem countFld_trc (x : Half) (off lo n k : Nat) : (x.countFld off lo n k).trc = x.trc := rfl
@[simp] theorem countFld_sys (x : Half) (off lo n k : Nat) : (x.countFld off lo n k).sys = x.sys := rfl
@[simp] theorem countFld_sec (x : Half) (off lo n k : Nat) : (x.countFld off lo n k).sec = x.sec := rfl
@[simp] theorem countFld_ctl (x : Half) (off lo n k : Nat) : (x.countFld off lo n k).ctl = x.ctl := rfl
@[simp] theorem countFld_out (x : Half) (off lo n k : Nat) : (x.countFld off lo n k).out = x.out := rfl
@[simp] theorem countFld_free (x : Half) (off lo n k : Nat) : (x.countFld off lo n k).free = x.free := rfl

@[simp] theorem emit_self (x : Half) (o : Output) : (x.emit o).self = x.self := rfl
@[simp] theorem emit_regs (x : Half) (o : Output) : (x.emit o).regs = x.regs := rfl
@[simp] theorem emit_latch (x : Half) (o : Output) : (x.emit o).latch = x.latch := rfl
@[simp] theorem emit_mem (x : Half) (o : Output) : (x.emit o).mem = x.mem := rfl
@[simp] theorem emit_ar (x : Half) (o : Output) : (x.emit o).ar = x.ar := rfl
@[simp] theorem emit_bundle (x : Half) (o : Output) : (x.emit o).bundle = x.bundle := rfl
@[simp] theorem emit_run (x : Half) (o : Output) : (x.emit o).run = x.run := rfl
@[simp] theorem emit_seq (x : Half) (o : Output) : (x.emit o).seq = x.seq := rfl
@[simp] theorem emit_seqCopy (x : Half) (o : Output) : (x.emit o).seqCopy = x.seqCopy := rfl
@[simp] theorem emit_pci (x : Half) (o : Output) : (x.emit o).pci = x.pci := rfl
@[simp] theorem emit_mt (x : Half) (o : Output) : (x.emit o).mt = x.mt := rfl
@[simp] theorem emit_txe (x : Half) (o : Output) : (x.emit o).txe = x.txe := rfl
@[simp] theorem emit_eng (x : Half) (o : Output) : (x.emit o).eng = x.eng := rfl
@[simp] theorem emit_asr (x : Half) (o : Output) : (x.emit o).asr = x.asr := rfl
@[simp] theorem emit_ptm (x : Half) (o : Output) : (x.emit o).ptm = x.ptm := rfl
@[simp] theorem emit_fab (x : Half) (o : Output) : (x.emit o).fab = x.fab := rfl
@[simp] theorem emit_pins (x : Half) (o : Output) : (x.emit o).pins = x.pins := rfl
@[simp] theorem emit_trc (x : Half) (o : Output) : (x.emit o).trc = x.trc := rfl
@[simp] theorem emit_sys (x : Half) (o : Output) : (x.emit o).sys = x.sys := rfl
@[simp] theorem emit_sec (x : Half) (o : Output) : (x.emit o).sec = x.sec := rfl
@[simp] theorem emit_ctl (x : Half) (o : Output) : (x.emit o).ctl = x.ctl := rfl
@[simp] theorem emit_free (x : Half) (o : Output) : (x.emit o).free = x.free := rfl
@[simp] theorem emit_out (x : Half) (o : Output) : (x.emit o).out = o :: x.out := rfl
@[simp] theorem emit_reg (x : Half) (o : Output) (off : Nat) : (x.emit o).reg off = x.reg off := rfl

/-! ## Registers -/

@[simp] theorem reg_setReg (x : Half) (off : Nat) (v : Word) : (x.setReg off v).reg off = v := by
  simp [Half.reg, Half.setReg]

theorem reg_setReg_ne (x : Half) {a b : Nat} (v : Word) (h : a ≠ b) : (x.setReg b v).reg a = x.reg a := by
  simp [Half.reg, Half.setReg, sget_sput_ne _ _ _ _ h]

theorem reg_setRFld (x : Half) (off lo n v : Nat) : (x.setRFld off lo n v).reg off = setFld (x.reg off) lo n v := by
  simp [Half.setRFld]

theorem reg_setRFld_ne (x : Half) {a b : Nat} (lo n v : Nat) (h : a ≠ b) : (x.setRFld b lo n v).reg a = x.reg a :=
  reg_setReg_ne x _ h

theorem reg_setRBit_ne (x : Half) {a b : Nat} (i : Nat) (v : Bool) (h : a ≠ b) : (x.setRBit b i v).reg a = x.reg a :=
  reg_setReg_ne x _ h

/-! ## Fields of words -/

/-- A bit of a word whose field has been set: inside the field the value's bit, outside it what it was. -/
theorem wbit_setFld (w : Word) (lo n v i : Nat) (hi : i < 32) :
    wbit (setFld w lo n v) i = if lo ≤ i ∧ i < lo + n then v.testBit (i - lo) else wbit w i := by
  have hm : (mask lo n).getLsbD i = decide (lo ≤ i ∧ i < lo + n) := by
    simp only [mask, BitVec.getLsbD_ofNat, hi, decide_true, Bool.true_and, Nat.testBit_mul_two_pow, Nat.testBit_two_pow_sub_one]
    by_cases h : lo ≤ i <;> simp [h]; omega
  have hv : (BitVec.ofNat 32 (v % 2 ^ n * 2 ^ lo)).getLsbD i = (decide (lo ≤ i ∧ i < lo + n) && v.testBit (i - lo)) := by
    simp only [BitVec.getLsbD_ofNat, hi, decide_true, Bool.true_and, Nat.testBit_mul_two_pow, Nat.testBit_mod_two_pow]
    by_cases h : lo ≤ i <;> simp [h]
    by_cases h2 : i < lo + n
    · have : i - lo < n := by omega
      simp [h2, this]
    · have : ¬ i - lo < n := by omega
      simp [h2, this]
  unfold wbit setFld
  rw [BitVec.getLsbD_or, BitVec.getLsbD_and, BitVec.getLsbD_not, hm, hv]
  by_cases h : lo ≤ i ∧ i < lo + n <;> simp [h, hi]

@[simp] theorem rbit_setRBit (x : Half) (off i : Nat) (b : Bool) (hi : i < 32) : (x.setRBit off i b).rbit off i = b := by
  unfold Half.rbit Half.setRBit
  rw [reg_setRFld, wbit_setFld _ _ _ _ _ hi]
  cases b <;> simp [bitNat]

theorem rbit_setRBit_ne (x : Half) (off : Nat) {i j : Nat} (b : Bool) (hi : i < 32) (h : i ≠ j) :
    (x.setRBit off j b).rbit off i = x.rbit off i := by
  unfold Half.rbit Half.setRBit
  rw [reg_setRFld, wbit_setFld _ _ _ _ _ hi, if_neg (by omega)]

theorem rbit_setReg_ne (x : Half) {a b : Nat} (v : Word) (i : Nat) (h : a ≠ b) : (x.setReg b v).rbit a i = x.rbit a i := by
  simp [Half.rbit, reg_setReg_ne x v h]

theorem rbit_setRBit_other (x : Half) {a b : Nat} (i j : Nat) (v : Bool) (h : a ≠ b) :
    (x.setRBit b j v).rbit a i = x.rbit a i := by simp [Half.rbit, reg_setRBit_ne x j v h]

theorem rfld_setRBit_other (x : Half) {a b : Nat} (lo n j : Nat) (v : Bool) (h : a ≠ b) :
    (x.setRBit b j v).rfld a lo n = x.rfld a lo n := by simp [Half.rfld, reg_setRBit_ne x j v h]

/-- A field is made of its bits. -/
theorem fld_testBit (w : Word) (lo n i : Nat) : (fld w lo n).testBit i = (decide (i < n) && wbit w (lo + i)) := by
  simp [fld, natField, wbit, Nat.testBit_mod_two_pow, Nat.testBit_div_two_pow, BitVec.getLsbD, Nat.add_comm]

theorem fld_setFld (w : Word) (lo n v : Nat) (h : lo + n ≤ 32) : fld (setFld w lo n v) lo n = v % 2 ^ n := by
  apply Nat.eq_of_testBit_eq
  intro i
  rw [fld_testBit, Nat.testBit_mod_two_pow]
  by_cases hi : i < n
  · rw [wbit_setFld _ _ _ _ _ (by omega), if_pos (by omega)]; simp [hi]
  · simp [hi]

@[simp] theorem rfld_setRFld (x : Half) (off lo n v : Nat) (h : lo + n ≤ 32) :
    (x.setRFld off lo n v).rfld off lo n = v % 2 ^ n := by simp [Half.rfld, reg_setRFld, fld_setFld _ _ _ _ h]

theorem fld_setFld_disjoint (w : Word) (lo n lo' n' v : Nat) (h : lo + n ≤ 32) (hd : lo + n ≤ lo' ∨ lo' + n' ≤ lo) :
    fld (setFld w lo' n' v) lo n = fld w lo n := by
  apply Nat.eq_of_testBit_eq
  intro i
  rw [fld_testBit, fld_testBit]
  by_cases hi : i < n
  · rw [wbit_setFld _ _ _ _ _ (by omega), if_neg (by omega)]
  · simp [hi]

end Sys2Proof.Machine
end

