-- ==== Sys2Proof/Laws/Memory.lean ====
section
/-!
SUPPORT. Laws/Memory.lean: a read after a write, what a write leaves alone, and that every operation of memory keeps its
canonical form.
-/

namespace Sys2Proof.Machine

@[simp] theorem rdByte_wrByte_self (m : List Host.Cell) (a : Nat) (v : Byte) : rdByte (wrByte m a v) a = v := by
  simp [rdByte, wrByte]

theorem rdByte_wrByte_ne (m : List Host.Cell) {a b : Nat} (v : Byte) (h : a ≠ b) : rdByte (wrByte m b v) a = rdByte m a :=
  sget_sput_ne m _ _ _ h

/-- A byte outside the bytes written is left as it was. -/
theorem rdByte_wrBytes_outside (m : List Host.Cell) (a : Nat) (bs : Bytes) (b : Nat) (h : b < a ∨ a + bs.length ≤ b) :
    rdByte (wrBytes m a bs) b = rdByte m b := by
  induction bs generalizing m a with
  | nil => rfl
  | cons v bs ih =>
    simp only [List.length_cons] at h
    simp only [wrBytes]
    rw [ih _ _ (by omega), rdByte_wrByte_ne _ _ (by omega)]

/-- A byte written is the byte of the string at its place. -/
theorem rdByte_wrBytes_inside (m : List Host.Cell) (a : Nat) (bs : Bytes) (i : Nat) (h : i < bs.length) :
    rdByte (wrBytes m a bs) (a + i) = bs[i] := by
  induction bs generalizing m a i with
  | nil => simp at h
  | cons v bs ih =>
    cases i with
    | zero =>
      simp only [wrBytes, Nat.add_zero, List.getElem_cons_zero]
      rw [rdByte_wrBytes_outside _ _ _ _ (by omega), rdByte_wrByte_self]
    | succ i =>
      simp only [List.length_cons] at h
      have := ih (wrByte m a v) (a + 1) i (by omega)
      simp only [wrBytes, List.getElem_cons_succ]
      rw [show a + (i + 1) = a + 1 + i by omega, this]

/-- What was written is read back. -/
theorem rdBytes_wrBytes (m : List Host.Cell) (a : Nat) (bs : Bytes) : rdBytes (wrBytes m a bs) a bs.length = bs := by
  induction bs generalizing m a with
  | nil => rfl
  | cons v bs ih =>
    simp only [wrBytes, List.length_cons, rdBytes]
    rw [ih, rdByte_wrBytes_outside _ _ _ _ (by omega), rdByte_wrByte_self]

theorem rdBytes_length (m : List Host.Cell) (a n : Nat) : (rdBytes m a n).length = n := by
  induction n generalizing a with
  | zero => rfl
  | succ n ih => simp [rdBytes, ih]

theorem leBytes_length (n v : Nat) : (leBytes n v).length = n := by
  induction n generalizing v with
  | zero => rfl
  | succ n ih => simp [leBytes, ih]

/-- A number is read back from its little-endian bytes. -/
theorem leNat_leBytes (n v : Nat) : leNat (leBytes n v) = v % 256 ^ n := by
  induction n generalizing v with
  | zero => simp [leNat, leBytes, Nat.mod_one]
  | succ n ih =>
    have h8 : v % 2 ^ 8 = v % 256 := rfl
    rw [leBytes, leNat, ih, BitVec.toNat_ofNat, h8, Nat.pow_succ, Nat.mul_comm (256 ^ n) 256, Nat.mod_mul]

/-! ## Canonical form -/

theorem wf_wrByte (m : List Host.Cell) (a : Nat) (v : Byte) (h : Memory.wf m = true) : Memory.wf (wrByte m a v) = true := by
  simp only [Memory.wf, Bool.and_eq_true] at h ⊢
  unfold wrByte sput
  split
  · exact ⟨sortedFrom_erase _ _ _ h.1, all_erase _ _ _ h.2⟩
  · next hv => exact ⟨sortedFrom_insert _ _ _ _ (Nat.zero_le _) h.1, all_insert _ _ _ _ (by simpa using hv) h.2⟩

theorem wf_wrBytes (m : List Host.Cell) (a : Nat) (bs : Bytes) (h : Memory.wf m = true) :
    Memory.wf (wrBytes m a bs) = true := by
  induction bs generalizing m a with
  | nil => exact h
  | cons v bs ih => exact ih _ _ (wf_wrByte _ _ _ h)

theorem wf_keepKeys (p : Nat → Bool) (m : List Host.Cell) (h : Memory.wf m = true) : Memory.wf (keepKeys p m) = true := by
  simp only [Memory.wf, Bool.and_eq_true] at h ⊢
  exact ⟨sortedFrom_keepKeys _ _ _ h.1, all_keepKeys _ _ _ h.2⟩

theorem wf_empty : Memory.wf [] = true := rfl

@[simp] theorem touch_mem (x : Half) (a n : Nat) : (x.touch a n).mem = x.mem := by unfold Half.touch; split <;> rfl

theorem wf_wrMemBytes (x : Half) (a : Nat) (bs : Bytes) (h : Memory.wf x.mem = true) :
    Memory.wf (x.wrMemBytes a bs).mem = true := by
  simp only [Half.wrMemBytes, touch_mem]; exact wf_wrBytes _ _ _ h

theorem wf_wrMem (x : Half) (a n v : Nat) (h : Memory.wf x.mem = true) : Memory.wf (x.wrMem a n v).mem = true :=
  wf_wrMemBytes x a _ h

theorem wf_clearMem (x : Half) (p : Nat → Bool) (h : Memory.wf x.mem = true) : Memory.wf (x.clearMem p).mem = true :=
  wf_keepKeys _ _ h

theorem wf_setSlot (x : Half) (g s : Nat) (v : Bool) (h : Memory.wf x.mem = true) : Memory.wf (x.setSlot g s v).mem = true :=
  wf_wrByte _ _ _ h

/-! ## Slots -/

theorem setBit_self (b : Byte) (i : Nat) (v : Bool) (h : i < 8) : (setBit b i v).getLsbD i = v := by
  have hp : (BitVec.ofNat 8 (2 ^ i)).getLsbD i = true := by
    rw [BitVec.getLsbD_ofNat, Nat.testBit_two_pow_self, decide_eq_true h, Bool.true_and]
  cases v
  · simp only [setBit, Bool.false_eq_true, if_false, BitVec.getLsbD_and, BitVec.getLsbD_not, hp, Bool.not_true, Bool.and_false]
  · simp only [setBit, if_true, BitVec.getLsbD_or, hp, Bool.or_true]

theorem setBit_ne (b : Byte) {i j : Nat} (v : Bool) (hij : i ≠ j) : (setBit b j v).getLsbD i = b.getLsbD i := by
  by_cases hi : i < 8
  · have hp : (BitVec.ofNat 8 (2 ^ j)).getLsbD i = false := by
      rw [BitVec.getLsbD_ofNat, Nat.testBit_two_pow_of_ne (Ne.symm hij), Bool.and_false]
    cases v
    · simp only [setBit, Bool.false_eq_true, if_false, BitVec.getLsbD_and, BitVec.getLsbD_not, hp, hi, decide_true, Bool.not_false,
        Bool.and_true]
    · simp only [setBit, if_true, BitVec.getLsbD_or, hp, Bool.or_false]
  · rw [BitVec.getLsbD_of_ge _ _ (by omega), BitVec.getLsbD_of_ge _ _ (by omega)]

@[simp] theorem slot_setSlot (x : Half) (g s : Nat) (v : Bool) : (x.setSlot g s v).slot g s = v := by
  simp only [Half.setSlot, Half.slot, rdByte_wrByte_self]
  exact setBit_self _ _ _ (Nat.mod_lt _ (by omega))

/-- Another slot of the same BP is left as it was. -/
theorem slot_setSlot_ne (x : Half) (g : Nat) {s s' : Nat} (v : Bool) (h : s ≠ s') : (x.setSlot g s' v).slot g s = x.slot g s := by
  simp only [Half.setSlot, Half.slot]
  by_cases hb : slotAddr g s = slotAddr g s'
  · rw [hb, rdByte_wrByte_self]
    exact setBit_ne _ _ (by simp only [slotAddr] at hb; omega)
  · rw [rdByte_wrByte_ne _ _ hb]

end Sys2Proof.Machine
end

