-- ==== Sys2Proof/Laws/Parts.lean ====
section
/-!
SUPPORT. Laws/Parts.lean: what replacing one bundle, engine, transaction, port, channel, output, domain or cell state leaves in
every field of a half, and that what was put is what is there.
-/

namespace Sys2Proof.Machine

@[simp] theorem setBun_self (x : Half) (b : Nat) (u : Bundle) : (x.setBun b u).self = x.self := rfl
@[simp] theorem setBun_regs (x : Half) (b : Nat) (u : Bundle) : (x.setBun b u).regs = x.regs := rfl
@[simp] theorem setBun_latch (x : Half) (b : Nat) (u : Bundle) : (x.setBun b u).latch = x.latch := rfl
@[simp] theorem setBun_mem (x : Half) (b : Nat) (u : Bundle) : (x.setBun b u).mem = x.mem := rfl
@[simp] theorem setBun_ar (x : Half) (b : Nat) (u : Bundle) : (x.setBun b u).ar = x.ar := rfl
@[simp] theorem setBun_run (x : Half) (b : Nat) (u : Bundle) : (x.setBun b u).run = x.run := rfl
@[simp] theorem setBun_seq (x : Half) (b : Nat) (u : Bundle) : (x.setBun b u).seq = x.seq := rfl
@[simp] theorem setBun_seqCopy (x : Half) (b : Nat) (u : Bundle) : (x.setBun b u).seqCopy = x.seqCopy := rfl
@[simp] theorem setBun_pci (x : Half) (b : Nat) (u : Bundle) : (x.setBun b u).pci = x.pci := rfl
@[simp] theorem setBun_mt (x : Half) (b : Nat) (u : Bundle) : (x.setBun b u).mt = x.mt := rfl
@[simp] theorem setBun_txe (x : Half) (b : Nat) (u : Bundle) : (x.setBun b u).txe = x.txe := rfl
@[simp] theorem setBun_eng (x : Half) (b : Nat) (u : Bundle) : (x.setBun b u).eng = x.eng := rfl
@[simp] theorem setBun_asr (x : Half) (b : Nat) (u : Bundle) : (x.setBun b u).asr = x.asr := rfl
@[simp] theorem setBun_ptm (x : Half) (b : Nat) (u : Bundle) : (x.setBun b u).ptm = x.ptm := rfl
@[simp] theorem setBun_fab (x : Half) (b : Nat) (u : Bundle) : (x.setBun b u).fab = x.fab := rfl
@[simp] theorem setBun_pins (x : Half) (b : Nat) (u : Bundle) : (x.setBun b u).pins = x.pins := rfl
@[simp] theorem setBun_trc (x : Half) (b : Nat) (u : Bundle) : (x.setBun b u).trc = x.trc := rfl
@[simp] theorem setBun_sys (x : Half) (b : Nat) (u : Bundle) : (x.setBun b u).sys = x.sys := rfl
@[simp] theorem setBun_sec (x : Half) (b : Nat) (u : Bundle) : (x.setBun b u).sec = x.sec := rfl
@[simp] theorem setBun_ctl (x : Half) (b : Nat) (u : Bundle) : (x.setBun b u).ctl = x.ctl := rfl
@[simp] theorem setBun_out (x : Half) (b : Nat) (u : Bundle) : (x.setBun b u).out = x.out := rfl
@[simp] theorem setBun_free (x : Half) (b : Nat) (u : Bundle) : (x.setBun b u).free = x.free := rfl
@[simp] theorem setBun_reg (x : Half) (b : Nat) (u : Bundle) (off : Nat) : (x.setBun b u).reg off = x.reg off := rfl
@[simp] theorem bun_setBun (x : Half) (b : Nat) (u : Bundle) : (x.setBun b u).bun b = u := sget_sput_self ..
theorem bun_setBun_ne (x : Half) (b : Nat) (u : Bundle) {j : Nat} (h : j ≠ b) : (x.setBun b u).bun j = x.bun j := sget_sput_ne _ _ _ _ h

@[simp] theorem setTrg_self (x : Half) (e : Nat) (v : TrgEng) : (x.setTrg e v).self = x.self := rfl
@[simp] theorem setTrg_regs (x : Half) (e : Nat) (v : TrgEng) : (x.setTrg e v).regs = x.regs := rfl
@[simp] theorem setTrg_latch (x : Half) (e : Nat) (v : TrgEng) : (x.setTrg e v).latch = x.latch := rfl
@[simp] theorem setTrg_mem (x : Half) (e : Nat) (v : TrgEng) : (x.setTrg e v).mem = x.mem := rfl
@[simp] theorem setTrg_ar (x : Half) (e : Nat) (v : TrgEng) : (x.setTrg e v).ar = x.ar := rfl
@[simp] theorem setTrg_bundle (x : Half) (e : Nat) (v : TrgEng) : (x.setTrg e v).bundle = x.bundle := rfl
@[simp] theorem setTrg_run (x : Half) (e : Nat) (v : TrgEng) : (x.setTrg e v).run = x.run := rfl
@[simp] theorem setTrg_seq (x : Half) (e : Nat) (v : TrgEng) : (x.setTrg e v).seq = x.seq := rfl
@[simp] theorem setTrg_seqCopy (x : Half) (e : Nat) (v : TrgEng) : (x.setTrg e v).seqCopy = x.seqCopy := rfl
@[simp] theorem setTrg_pci (x : Half) (e : Nat) (v : TrgEng) : (x.setTrg e v).pci = x.pci := rfl
@[simp] theorem setTrg_mt (x : Half) (e : Nat) (v : TrgEng) : (x.setTrg e v).mt = x.mt := rfl
@[simp] theorem setTrg_txe (x : Half) (e : Nat) (v : TrgEng) : (x.setTrg e v).txe = x.txe := rfl
@[simp] theorem setTrg_asr (x : Half) (e : Nat) (v : TrgEng) : (x.setTrg e v).asr = x.asr := rfl
@[simp] theorem setTrg_ptm (x : Half) (e : Nat) (v : TrgEng) : (x.setTrg e v).ptm = x.ptm := rfl
@[simp] theorem setTrg_fab (x : Half) (e : Nat) (v : TrgEng) : (x.setTrg e v).fab = x.fab := rfl
@[simp] theorem setTrg_pins (x : Half) (e : Nat) (v : TrgEng) : (x.setTrg e v).pins = x.pins := rfl
@[simp] theorem setTrg_trc (x : Half) (e : Nat) (v : TrgEng) : (x.setTrg e v).trc = x.trc := rfl
@[simp] theorem setTrg_sys (x : Half) (e : Nat) (v : TrgEng) : (x.setTrg e v).sys = x.sys := rfl
@[simp] theorem setTrg_sec (x : Half) (e : Nat) (v : TrgEng) : (x.setTrg e v).sec = x.sec := rfl
@[simp] theorem setTrg_ctl (x : Half) (e : Nat) (v : TrgEng) : (x.setTrg e v).ctl = x.ctl := rfl
@[simp] theorem setTrg_out (x : Half) (e : Nat) (v : TrgEng) : (x.setTrg e v).out = x.out := rfl
@[simp] theorem setTrg_free (x : Half) (e : Nat) (v : TrgEng) : (x.setTrg e v).free = x.free := rfl
@[simp] theorem setTrg_reg (x : Half) (e : Nat) (v : TrgEng) (off : Nat) : (x.setTrg e v).reg off = x.reg off := rfl
@[simp] theorem trg_setTrg (x : Half) (e : Nat) (v : TrgEng) : (x.setTrg e v).trg e = v := sget_sput_self ..
theorem trg_setTrg_ne (x : Half) (e : Nat) (v : TrgEng) {j : Nat} (h : j ≠ e) : (x.setTrg e v).trg j = x.trg j := sget_sput_ne _ _ _ _ h

@[simp] theorem setCap_self (x : Half) (e : Nat) (v : CapEng) : (x.setCap e v).self = x.self := rfl
@[simp] theorem setCap_regs (x : Half) (e : Nat) (v : CapEng) : (x.setCap e v).regs = x.regs := rfl
@[simp] theorem setCap_latch (x : Half) (e : Nat) (v : CapEng) : (x.setCap e v).latch = x.latch := rfl
@[simp] theorem setCap_mem (x : Half) (e : Nat) (v : CapEng) : (x.setCap e v).mem = x.mem := rfl
@[simp] theorem setCap_ar (x : Half) (e : Nat) (v : CapEng) : (x.setCap e v).ar = x.ar := rfl
@[simp] theorem setCap_bundle (x : Half) (e : Nat) (v : CapEng) : (x.setCap e v).bundle = x.bundle := rfl
@[simp] theorem setCap_run (x : Half) (e : Nat) (v : CapEng) : (x.setCap e v).run = x.run := rfl
@[simp] theorem setCap_seq (x : Half) (e : Nat) (v : CapEng) : (x.setCap e v).seq = x.seq := rfl
@[simp] theorem setCap_seqCopy (x : Half) (e : Nat) (v : CapEng) : (x.setCap e v).seqCopy = x.seqCopy := rfl
@[simp] theorem setCap_pci (x : Half) (e : Nat) (v : CapEng) : (x.setCap e v).pci = x.pci := rfl
@[simp] theorem setCap_mt (x : Half) (e : Nat) (v : CapEng) : (x.setCap e v).mt = x.mt := rfl
@[simp] theorem setCap_txe (x : Half) (e : Nat) (v : CapEng) : (x.setCap e v).txe = x.txe := rfl
@[simp] theorem setCap_asr (x : Half) (e : Nat) (v : CapEng) : (x.setCap e v).asr = x.asr := rfl
@[simp] theorem setCap_ptm (x : Half) (e : Nat) (v : CapEng) : (x.setCap e v).ptm = x.ptm := rfl
@[simp] theorem setCap_fab (x : Half) (e : Nat) (v : CapEng) : (x.setCap e v).fab = x.fab := rfl
@[simp] theorem setCap_pins (x : Half) (e : Nat) (v : CapEng) : (x.setCap e v).pins = x.pins := rfl
@[simp] theorem setCap_trc (x : Half) (e : Nat) (v : CapEng) : (x.setCap e v).trc = x.trc := rfl
@[simp] theorem setCap_sys (x : Half) (e : Nat) (v : CapEng) : (x.setCap e v).sys = x.sys := rfl
@[simp] theorem setCap_sec (x : Half) (e : Nat) (v : CapEng) : (x.setCap e v).sec = x.sec := rfl
@[simp] theorem setCap_ctl (x : Half) (e : Nat) (v : CapEng) : (x.setCap e v).ctl = x.ctl := rfl
@[simp] theorem setCap_out (x : Half) (e : Nat) (v : CapEng) : (x.setCap e v).out = x.out := rfl
@[simp] theorem setCap_free (x : Half) (e : Nat) (v : CapEng) : (x.setCap e v).free = x.free := rfl
@[simp] theorem setCap_reg (x : Half) (e : Nat) (v : CapEng) (off : Nat) : (x.setCap e v).reg off = x.reg off := rfl
@[simp] theorem cap_setCap (x : Half) (e : Nat) (v : CapEng) : (x.setCap e v).cap e = v := sget_sput_self ..
theorem cap_setCap_ne (x : Half) (e : Nat) (v : CapEng) {j : Nat} (h : j ≠ e) : (x.setCap e v).cap j = x.cap j := sget_sput_ne _ _ _ _ h

@[simp] theorem setPly_self (x : Half) (e : Nat) (v : PlyEng) : (x.setPly e v).self = x.self := rfl
@[simp] theorem setPly_regs (x : Half) (e : Nat) (v : PlyEng) : (x.setPly e v).regs = x.regs := rfl
@[simp] theorem setPly_latch (x : Half) (e : Nat) (v : PlyEng) : (x.setPly e v).latch = x.latch := rfl
@[simp] theorem setPly_mem (x : Half) (e : Nat) (v : PlyEng) : (x.setPly e v).mem = x.mem := rfl
@[simp] theorem setPly_ar (x : Half) (e : Nat) (v : PlyEng) : (x.setPly e v).ar = x.ar := rfl
@[simp] theorem setPly_bundle (x : Half) (e : Nat) (v : PlyEng) : (x.setPly e v).bundle = x.bundle := rfl
@[simp] theorem setPly_run (x : Half) (e : Nat) (v : PlyEng) : (x.setPly e v).run = x.run := rfl
@[simp] theorem setPly_seq (x : Half) (e : Nat) (v : PlyEng) : (x.setPly e v).seq = x.seq := rfl
@[simp] theorem setPly_seqCopy (x : Half) (e : Nat) (v : PlyEng) : (x.setPly e v).seqCopy = x.seqCopy := rfl
@[simp] theorem setPly_pci (x : Half) (e : Nat) (v : PlyEng) : (x.setPly e v).pci = x.pci := rfl
@[simp] theorem setPly_mt (x : Half) (e : Nat) (v : PlyEng) : (x.setPly e v).mt = x.mt := rfl
@[simp] theorem setPly_txe (x : Half) (e : Nat) (v : PlyEng) : (x.setPly e v).txe = x.txe := rfl
@[simp] theorem setPly_asr (x : Half) (e : Nat) (v : PlyEng) : (x.setPly e v).asr = x.asr := rfl
@[simp] theorem setPly_ptm (x : Half) (e : Nat) (v : PlyEng) : (x.setPly e v).ptm = x.ptm := rfl
@[simp] theorem setPly_fab (x : Half) (e : Nat) (v : PlyEng) : (x.setPly e v).fab = x.fab := rfl
@[simp] theorem setPly_pins (x : Half) (e : Nat) (v : PlyEng) : (x.setPly e v).pins = x.pins := rfl
@[simp] theorem setPly_trc (x : Half) (e : Nat) (v : PlyEng) : (x.setPly e v).trc = x.trc := rfl
@[simp] theorem setPly_sys (x : Half) (e : Nat) (v : PlyEng) : (x.setPly e v).sys = x.sys := rfl
@[simp] theorem setPly_sec (x : Half) (e : Nat) (v : PlyEng) : (x.setPly e v).sec = x.sec := rfl
@[simp] theorem setPly_ctl (x : Half) (e : Nat) (v : PlyEng) : (x.setPly e v).ctl = x.ctl := rfl
@[simp] theorem setPly_out (x : Half) (e : Nat) (v : PlyEng) : (x.setPly e v).out = x.out := rfl
@[simp] theorem setPly_free (x : Half) (e : Nat) (v : PlyEng) : (x.setPly e v).free = x.free := rfl
@[simp] theorem setPly_reg (x : Half) (e : Nat) (v : PlyEng) (off : Nat) : (x.setPly e v).reg off = x.reg off := rfl
@[simp] theorem ply_setPly (x : Half) (e : Nat) (v : PlyEng) : (x.setPly e v).ply e = v := sget_sput_self ..
theorem ply_setPly_ne (x : Half) (e : Nat) (v : PlyEng) {j : Nat} (h : j ≠ e) : (x.setPly e v).ply j = x.ply j := sget_sput_ne _ _ _ _ h

@[simp] theorem setTxn_self (x : Half) (i : Nat) (t : Option Txn) : (x.setTxn i t).self = x.self := rfl
@[simp] theorem setTxn_regs (x : Half) (i : Nat) (t : Option Txn) : (x.setTxn i t).regs = x.regs := rfl
@[simp] theorem setTxn_latch (x : Half) (i : Nat) (t : Option Txn) : (x.setTxn i t).latch = x.latch := rfl
@[simp] theorem setTxn_mem (x : Half) (i : Nat) (t : Option Txn) : (x.setTxn i t).mem = x.mem := rfl
@[simp] theorem setTxn_ar (x : Half) (i : Nat) (t : Option Txn) : (x.setTxn i t).ar = x.ar := rfl
@[simp] theorem setTxn_bundle (x : Half) (i : Nat) (t : Option Txn) : (x.setTxn i t).bundle = x.bundle := rfl
@[simp] theorem setTxn_run (x : Half) (i : Nat) (t : Option Txn) : (x.setTxn i t).run = x.run := rfl
@[simp] theorem setTxn_seq (x : Half) (i : Nat) (t : Option Txn) : (x.setTxn i t).seq = x.seq := rfl
@[simp] theorem setTxn_seqCopy (x : Half) (i : Nat) (t : Option Txn) : (x.setTxn i t).seqCopy = x.seqCopy := rfl
@[simp] theorem setTxn_pci (x : Half) (i : Nat) (t : Option Txn) : (x.setTxn i t).pci = x.pci := rfl
@[simp] theorem setTxn_mt (x : Half) (i : Nat) (t : Option Txn) : (x.setTxn i t).mt = x.mt := rfl
@[simp] theorem setTxn_eng (x : Half) (i : Nat) (t : Option Txn) : (x.setTxn i t).eng = x.eng := rfl
@[simp] theorem setTxn_asr (x : Half) (i : Nat) (t : Option Txn) : (x.setTxn i t).asr = x.asr := rfl
@[simp] theorem setTxn_ptm (x : Half) (i : Nat) (t : Option Txn) : (x.setTxn i t).ptm = x.ptm := rfl
@[simp] theorem setTxn_fab (x : Half) (i : Nat) (t : Option Txn) : (x.setTxn i t).fab = x.fab := rfl
@[simp] theorem setTxn_pins (x : Half) (i : Nat) (t : Option Txn) : (x.setTxn i t).pins = x.pins := rfl
@[simp] theorem setTxn_trc (x : Half) (i : Nat) (t : Option Txn) : (x.setTxn i t).trc = x.trc := rfl
@[simp] theorem setTxn_sys (x : Half) (i : Nat) (t : Option Txn) : (x.setTxn i t).sys = x.sys := rfl
@[simp] theorem setTxn_sec (x : Half) (i : Nat) (t : Option Txn) : (x.setTxn i t).sec = x.sec := rfl
@[simp] theorem setTxn_ctl (x : Half) (i : Nat) (t : Option Txn) : (x.setTxn i t).ctl = x.ctl := rfl
@[simp] theorem setTxn_out (x : Half) (i : Nat) (t : Option Txn) : (x.setTxn i t).out = x.out := rfl
@[simp] theorem setTxn_free (x : Half) (i : Nat) (t : Option Txn) : (x.setTxn i t).free = x.free := rfl
@[simp] theorem setTxn_reg (x : Half) (i : Nat) (t : Option Txn) (off : Nat) : (x.setTxn i t).reg off = x.reg off := rfl
@[simp] theorem txn_setTxn (x : Half) (i : Nat) (t : Option Txn) : (x.setTxn i t).txn i = t := sget_sput_self ..
theorem txn_setTxn_ne (x : Half) (i : Nat) (t : Option Txn) {j : Nat} (h : j ≠ i) : (x.setTxn i t).txn j = x.txn j := sget_sput_ne _ _ _ _ h

@[simp] theorem setTport_self (x : Half) (p : Nat) (v : Port) : (x.setTport p v).self = x.self := rfl
@[simp] theorem setTport_regs (x : Half) (p : Nat) (v : Port) : (x.setTport p v).regs = x.regs := rfl
@[simp] theorem setTport_latch (x : Half) (p : Nat) (v : Port) : (x.setTport p v).latch = x.latch := rfl
@[simp] theorem setTport_mem (x : Half) (p : Nat) (v : Port) : (x.setTport p v).mem = x.mem := rfl
@[simp] theorem setTport_ar (x : Half) (p : Nat) (v : Port) : (x.setTport p v).ar = x.ar := rfl
@[simp] theorem setTport_bundle (x : Half) (p : Nat) (v : Port) : (x.setTport p v).bundle = x.bundle := rfl
@[simp] theorem setTport_run (x : Half) (p : Nat) (v : Port) : (x.setTport p v).run = x.run := rfl
@[simp] theorem setTport_seq (x : Half) (p : Nat) (v : Port) : (x.setTport p v).seq = x.seq := rfl
@[simp] theorem setTport_seqCopy (x : Half) (p : Nat) (v : Port) : (x.setTport p v).seqCopy = x.seqCopy := rfl
@[simp] theorem setTport_pci (x : Half) (p : Nat) (v : Port) : (x.setTport p v).pci = x.pci := rfl
@[simp] theorem setTport_mt (x : Half) (p : Nat) (v : Port) : (x.setTport p v).mt = x.mt := rfl
@[simp] theorem setTport_eng (x : Half) (p : Nat) (v : Port) : (x.setTport p v).eng = x.eng := rfl
@[simp] theorem setTport_asr (x : Half) (p : Nat) (v : Port) : (x.setTport p v).asr = x.asr := rfl
@[simp] theorem setTport_ptm (x : Half) (p : Nat) (v : Port) : (x.setTport p v).ptm = x.ptm := rfl
@[simp] theorem setTport_fab (x : Half) (p : Nat) (v : Port) : (x.setTport p v).fab = x.fab := rfl
@[simp] theorem setTport_pins (x : Half) (p : Nat) (v : Port) : (x.setTport p v).pins = x.pins := rfl
@[simp] theorem setTport_trc (x : Half) (p : Nat) (v : Port) : (x.setTport p v).trc = x.trc := rfl
@[simp] theorem setTport_sys (x : Half) (p : Nat) (v : Port) : (x.setTport p v).sys = x.sys := rfl
@[simp] theorem setTport_sec (x : Half) (p : Nat) (v : Port) : (x.setTport p v).sec = x.sec := rfl
@[simp] theorem setTport_ctl (x : Half) (p : Nat) (v : Port) : (x.setTport p v).ctl = x.ctl := rfl
@[simp] theorem setTport_out (x : Half) (p : Nat) (v : Port) : (x.setTport p v).out = x.out := rfl
@[simp] theorem setTport_free (x : Half) (p : Nat) (v : Port) : (x.setTport p v).free = x.free := rfl
@[simp] theorem setTport_reg (x : Half) (p : Nat) (v : Port) (off : Nat) : (x.setTport p v).reg off = x.reg off := rfl
@[simp] theorem tport_setTport (x : Half) (p : Nat) (v : Port) : (x.setTport p v).tport p = v := sget_sput_self ..
theorem tport_setTport_ne (x : Half) (p : Nat) (v : Port) {j : Nat} (h : j ≠ p) : (x.setTport p v).tport j = x.tport j := sget_sput_ne _ _ _ _ h

@[simp] theorem setChan_self (x : Half) (k : Nat) (c : Chan) : (x.setChan k c).self = x.self := rfl
@[simp] theorem setChan_regs (x : Half) (k : Nat) (c : Chan) : (x.setChan k c).regs = x.regs := rfl
@[simp] theorem setChan_latch (x : Half) (k : Nat) (c : Chan) : (x.setChan k c).latch = x.latch := rfl
@[simp] theorem setChan_mem (x : Half) (k : Nat) (c : Chan) : (x.setChan k c).mem = x.mem := rfl
@[simp] theorem setChan_ar (x : Half) (k : Nat) (c : Chan) : (x.setChan k c).ar = x.ar := rfl
@[simp] theorem setChan_bundle (x : Half) (k : Nat) (c : Chan) : (x.setChan k c).bundle = x.bundle := rfl
@[simp] theorem setChan_run (x : Half) (k : Nat) (c : Chan) : (x.setChan k c).run = x.run := rfl
@[simp] theorem setChan_seq (x : Half) (k : Nat) (c : Chan) : (x.setChan k c).seq = x.seq := rfl
@[simp] theorem setChan_seqCopy (x : Half) (k : Nat) (c : Chan) : (x.setChan k c).seqCopy = x.seqCopy := rfl
@[simp] theorem setChan_pci (x : Half) (k : Nat) (c : Chan) : (x.setChan k c).pci = x.pci := rfl
@[simp] theorem setChan_mt (x : Half) (k : Nat) (c : Chan) : (x.setChan k c).mt = x.mt := rfl
@[simp] theorem setChan_txe (x : Half) (k : Nat) (c : Chan) : (x.setChan k c).txe = x.txe := rfl
@[simp] theorem setChan_eng (x : Half) (k : Nat) (c : Chan) : (x.setChan k c).eng = x.eng := rfl
@[simp] theorem setChan_asr (x : Half) (k : Nat) (c : Chan) : (x.setChan k c).asr = x.asr := rfl
@[simp] theorem setChan_ptm (x : Half) (k : Nat) (c : Chan) : (x.setChan k c).ptm = x.ptm := rfl
@[simp] theorem setChan_pins (x : Half) (k : Nat) (c : Chan) : (x.setChan k c).pins = x.pins := rfl
@[simp] theorem setChan_trc (x : Half) (k : Nat) (c : Chan) : (x.setChan k c).trc = x.trc := rfl
@[simp] theorem setChan_sys (x : Half) (k : Nat) (c : Chan) : (x.setChan k c).sys = x.sys := rfl
@[simp] theorem setChan_sec (x : Half) (k : Nat) (c : Chan) : (x.setChan k c).sec = x.sec := rfl
@[simp] theorem setChan_ctl (x : Half) (k : Nat) (c : Chan) : (x.setChan k c).ctl = x.ctl := rfl
@[simp] theorem setChan_out (x : Half) (k : Nat) (c : Chan) : (x.setChan k c).out = x.out := rfl
@[simp] theorem setChan_free (x : Half) (k : Nat) (c : Chan) : (x.setChan k c).free = x.free := rfl
@[simp] theorem setChan_reg (x : Half) (k : Nat) (c : Chan) (off : Nat) : (x.setChan k c).reg off = x.reg off := rfl
@[simp] theorem chan_setChan (x : Half) (k : Nat) (c : Chan) : (x.setChan k c).chan k = c := sget_sput_self ..
theorem chan_setChan_ne (x : Half) (k : Nat) (c : Chan) {j : Nat} (h : j ≠ k) : (x.setChan k c).chan j = x.chan j := sget_sput_ne _ _ _ _ h

@[simp] theorem setTpo_self (x : Half) (k : Nat) (t : Tpo) : (x.setTpo k t).self = x.self := rfl
@[simp] theorem setTpo_regs (x : Half) (k : Nat) (t : Tpo) : (x.setTpo k t).regs = x.regs := rfl
@[simp] theorem setTpo_latch (x : Half) (k : Nat) (t : Tpo) : (x.setTpo k t).latch = x.latch := rfl
@[simp] theorem setTpo_mem (x : Half) (k : Nat) (t : Tpo) : (x.setTpo k t).mem = x.mem := rfl
@[simp] theorem setTpo_ar (x : Half) (k : Nat) (t : Tpo) : (x.setTpo k t).ar = x.ar := rfl
@[simp] theorem setTpo_bundle (x : Half) (k : Nat) (t : Tpo) : (x.setTpo k t).bundle = x.bundle := rfl
@[simp] theorem setTpo_run (x : Half) (k : Nat) (t : Tpo) : (x.setTpo k t).run = x.run := rfl
@[simp] theorem setTpo_seq (x : Half) (k : Nat) (t : Tpo) : (x.setTpo k t).seq = x.seq := rfl
@[simp] theorem setTpo_seqCopy (x : Half) (k : Nat) (t : Tpo) : (x.setTpo k t).seqCopy = x.seqCopy := rfl
@[simp] theorem setTpo_pci (x : Half) (k : Nat) (t : Tpo) : (x.setTpo k t).pci = x.pci := rfl
@[simp] theorem setTpo_mt (x : Half) (k : Nat) (t : Tpo) : (x.setTpo k t).mt = x.mt := rfl
@[simp] theorem setTpo_txe (x : Half) (k : Nat) (t : Tpo) : (x.setTpo k t).txe = x.txe := rfl
@[simp] theorem setTpo_eng (x : Half) (k : Nat) (t : Tpo) : (x.setTpo k t).eng = x.eng := rfl
@[simp] theorem setTpo_asr (x : Half) (k : Nat) (t : Tpo) : (x.setTpo k t).asr = x.asr := rfl
@[simp] theorem setTpo_fab (x : Half) (k : Nat) (t : Tpo) : (x.setTpo k t).fab = x.fab := rfl
@[simp] theorem setTpo_pins (x : Half) (k : Nat) (t : Tpo) : (x.setTpo k t).pins = x.pins := rfl
@[simp] theorem setTpo_trc (x : Half) (k : Nat) (t : Tpo) : (x.setTpo k t).trc = x.trc := rfl
@[simp] theorem setTpo_sys (x : Half) (k : Nat) (t : Tpo) : (x.setTpo k t).sys = x.sys := rfl
@[simp] theorem setTpo_sec (x : Half) (k : Nat) (t : Tpo) : (x.setTpo k t).sec = x.sec := rfl
@[simp] theorem setTpo_ctl (x : Half) (k : Nat) (t : Tpo) : (x.setTpo k t).ctl = x.ctl := rfl
@[simp] theorem setTpo_out (x : Half) (k : Nat) (t : Tpo) : (x.setTpo k t).out = x.out := rfl
@[simp] theorem setTpo_free (x : Half) (k : Nat) (t : Tpo) : (x.setTpo k t).free = x.free := rfl
@[simp] theorem setTpo_reg (x : Half) (k : Nat) (t : Tpo) (off : Nat) : (x.setTpo k t).reg off = x.reg off := rfl
@[simp] theorem tpo_setTpo (x : Half) (k : Nat) (t : Tpo) : (x.setTpo k t).tpo k = t := sget_sput_self ..
theorem tpo_setTpo_ne (x : Half) (k : Nat) (t : Tpo) {j : Nat} (h : j ≠ k) : (x.setTpo k t).tpo j = x.tpo j := sget_sput_ne _ _ _ _ h

@[simp] theorem setPdom_self (x : Half) (d : Nat) (p : PtpDom) : (x.setPdom d p).self = x.self := rfl
@[simp] theorem setPdom_regs (x : Half) (d : Nat) (p : PtpDom) : (x.setPdom d p).regs = x.regs := rfl
@[simp] theorem setPdom_latch (x : Half) (d : Nat) (p : PtpDom) : (x.setPdom d p).latch = x.latch := rfl
@[simp] theorem setPdom_mem (x : Half) (d : Nat) (p : PtpDom) : (x.setPdom d p).mem = x.mem := rfl
@[simp] theorem setPdom_ar (x : Half) (d : Nat) (p : PtpDom) : (x.setPdom d p).ar = x.ar := rfl
@[simp] theorem setPdom_bundle (x : Half) (d : Nat) (p : PtpDom) : (x.setPdom d p).bundle = x.bundle := rfl
@[simp] theorem setPdom_run (x : Half) (d : Nat) (p : PtpDom) : (x.setPdom d p).run = x.run := rfl
@[simp] theorem setPdom_seq (x : Half) (d : Nat) (p : PtpDom) : (x.setPdom d p).seq = x.seq := rfl
@[simp] theorem setPdom_seqCopy (x : Half) (d : Nat) (p : PtpDom) : (x.setPdom d p).seqCopy = x.seqCopy := rfl
@[simp] theorem setPdom_pci (x : Half) (d : Nat) (p : PtpDom) : (x.setPdom d p).pci = x.pci := rfl
@[simp] theorem setPdom_mt (x : Half) (d : Nat) (p : PtpDom) : (x.setPdom d p).mt = x.mt := rfl
@[simp] theorem setPdom_txe (x : Half) (d : Nat) (p : PtpDom) : (x.setPdom d p).txe = x.txe := rfl
@[simp] theorem setPdom_eng (x : Half) (d : Nat) (p : PtpDom) : (x.setPdom d p).eng = x.eng := rfl
@[simp] theorem setPdom_asr (x : Half) (d : Nat) (p : PtpDom) : (x.setPdom d p).asr = x.asr := rfl
@[simp] theorem setPdom_fab (x : Half) (d : Nat) (p : PtpDom) : (x.setPdom d p).fab = x.fab := rfl
@[simp] theorem setPdom_pins (x : Half) (d : Nat) (p : PtpDom) : (x.setPdom d p).pins = x.pins := rfl
@[simp] theorem setPdom_trc (x : Half) (d : Nat) (p : PtpDom) : (x.setPdom d p).trc = x.trc := rfl
@[simp] theorem setPdom_sys (x : Half) (d : Nat) (p : PtpDom) : (x.setPdom d p).sys = x.sys := rfl
@[simp] theorem setPdom_sec (x : Half) (d : Nat) (p : PtpDom) : (x.setPdom d p).sec = x.sec := rfl
@[simp] theorem setPdom_ctl (x : Half) (d : Nat) (p : PtpDom) : (x.setPdom d p).ctl = x.ctl := rfl
@[simp] theorem setPdom_out (x : Half) (d : Nat) (p : PtpDom) : (x.setPdom d p).out = x.out := rfl
@[simp] theorem setPdom_free (x : Half) (d : Nat) (p : PtpDom) : (x.setPdom d p).free = x.free := rfl
@[simp] theorem setPdom_reg (x : Half) (d : Nat) (p : PtpDom) (off : Nat) : (x.setPdom d p).reg off = x.reg off := rfl
@[simp] theorem pdom_setPdom (x : Half) (d : Nat) (p : PtpDom) : (x.setPdom d p).pdom d = p := sget_sput_self ..
theorem pdom_setPdom_ne (x : Half) (d : Nat) (p : PtpDom) {j : Nat} (h : j ≠ d) : (x.setPdom d p).pdom j = x.pdom j := sget_sput_ne _ _ _ _ h

@[simp] theorem setCell_self (x : Half) (c : Cells) : (x.setCell c).self = x.self := rfl
@[simp] theorem setCell_regs (x : Half) (c : Cells) : (x.setCell c).regs = x.regs := rfl
@[simp] theorem setCell_latch (x : Half) (c : Cells) : (x.setCell c).latch = x.latch := rfl
@[simp] theorem setCell_mem (x : Half) (c : Cells) : (x.setCell c).mem = x.mem := rfl
@[simp] theorem setCell_ar (x : Half) (c : Cells) : (x.setCell c).ar = x.ar := rfl
@[simp] theorem setCell_bundle (x : Half) (c : Cells) : (x.setCell c).bundle = x.bundle := rfl
@[simp] theorem setCell_run (x : Half) (c : Cells) : (x.setCell c).run = x.run := rfl
@[simp] theorem setCell_seq (x : Half) (c : Cells) : (x.setCell c).seq = x.seq := rfl
@[simp] theorem setCell_seqCopy (x : Half) (c : Cells) : (x.setCell c).seqCopy = x.seqCopy := rfl
@[simp] theorem setCell_pci (x : Half) (c : Cells) : (x.setCell c).pci = x.pci := rfl
@[simp] theorem setCell_mt (x : Half) (c : Cells) : (x.setCell c).mt = x.mt := rfl
@[simp] theorem setCell_txe (x : Half) (c : Cells) : (x.setCell c).txe = x.txe := rfl
@[simp] theorem setCell_eng (x : Half) (c : Cells) : (x.setCell c).eng = x.eng := rfl
@[simp] theorem setCell_asr (x : Half) (c : Cells) : (x.setCell c).asr = x.asr := rfl
@[simp] theorem setCell_ptm (x : Half) (c : Cells) : (x.setCell c).ptm = x.ptm := rfl
@[simp] theorem setCell_pins (x : Half) (c : Cells) : (x.setCell c).pins = x.pins := rfl
@[simp] theorem setCell_trc (x : Half) (c : Cells) : (x.setCell c).trc = x.trc := rfl
@[simp] theorem setCell_sys (x : Half) (c : Cells) : (x.setCell c).sys = x.sys := rfl
@[simp] theorem setCell_sec (x : Half) (c : Cells) : (x.setCell c).sec = x.sec := rfl
@[simp] theorem setCell_ctl (x : Half) (c : Cells) : (x.setCell c).ctl = x.ctl := rfl
@[simp] theorem setCell_out (x : Half) (c : Cells) : (x.setCell c).out = x.out := rfl
@[simp] theorem setCell_free (x : Half) (c : Cells) : (x.setCell c).free = x.free := rfl
@[simp] theorem setCell_reg (x : Half) (c : Cells) (off : Nat) : (x.setCell c).reg off = x.reg off := rfl

@[simp] theorem setStall_self (x : Half) (f : StallPoint → StallPoint) : (x.setStall f).self = x.self := rfl
@[simp] theorem setStall_regs (x : Half) (f : StallPoint → StallPoint) : (x.setStall f).regs = x.regs := rfl
@[simp] theorem setStall_latch (x : Half) (f : StallPoint → StallPoint) : (x.setStall f).latch = x.latch := rfl
@[simp] theorem setStall_mem (x : Half) (f : StallPoint → StallPoint) : (x.setStall f).mem = x.mem := rfl
@[simp] theorem setStall_ar (x : Half) (f : StallPoint → StallPoint) : (x.setStall f).ar = x.ar := rfl
@[simp] theorem setStall_bundle (x : Half) (f : StallPoint → StallPoint) : (x.setStall f).bundle = x.bundle := rfl
@[simp] theorem setStall_seq (x : Half) (f : StallPoint → StallPoint) : (x.setStall f).seq = x.seq := rfl
@[simp] theorem setStall_seqCopy (x : Half) (f : StallPoint → StallPoint) : (x.setStall f).seqCopy = x.seqCopy := rfl
@[simp] theorem setStall_pci (x : Half) (f : StallPoint → StallPoint) : (x.setStall f).pci = x.pci := rfl
@[simp] theorem setStall_mt (x : Half) (f : StallPoint → StallPoint) : (x.setStall f).mt = x.mt := rfl
@[simp] theorem setStall_txe (x : Half) (f : StallPoint → StallPoint) : (x.setStall f).txe = x.txe := rfl
@[simp] theorem setStall_eng (x : Half) (f : StallPoint → StallPoint) : (x.setStall f).eng = x.eng := rfl
@[simp] theorem setStall_asr (x : Half) (f : StallPoint → StallPoint) : (x.setStall f).asr = x.asr := rfl
@[simp] theorem setStall_ptm (x : Half) (f : StallPoint → StallPoint) : (x.setStall f).ptm = x.ptm := rfl
@[simp] theorem setStall_fab (x : Half) (f : StallPoint → StallPoint) : (x.setStall f).fab = x.fab := rfl
@[simp] theorem setStall_pins (x : Half) (f : StallPoint → StallPoint) : (x.setStall f).pins = x.pins := rfl
@[simp] theorem setStall_trc (x : Half) (f : StallPoint → StallPoint) : (x.setStall f).trc = x.trc := rfl
@[simp] theorem setStall_sys (x : Half) (f : StallPoint → StallPoint) : (x.setStall f).sys = x.sys := rfl
@[simp] theorem setStall_sec (x : Half) (f : StallPoint → StallPoint) : (x.setStall f).sec = x.sec := rfl
@[simp] theorem setStall_ctl (x : Half) (f : StallPoint → StallPoint) : (x.setStall f).ctl = x.ctl := rfl
@[simp] theorem setStall_out (x : Half) (f : StallPoint → StallPoint) : (x.setStall f).out = x.out := rfl
@[simp] theorem setStall_free (x : Half) (f : StallPoint → StallPoint) : (x.setStall f).free = x.free := rfl
@[simp] theorem setStall_reg (x : Half) (f : StallPoint → StallPoint) (off : Nat) : (x.setStall f).reg off = x.reg off := rfl

@[simp] theorem setSlot_self (x : Half) (g k : Nat) (b : Bool) : (x.setSlot g k b).self = x.self := rfl
@[simp] theorem setSlot_regs (x : Half) (g k : Nat) (b : Bool) : (x.setSlot g k b).regs = x.regs := rfl
@[simp] theorem setSlot_latch (x : Half) (g k : Nat) (b : Bool) : (x.setSlot g k b).latch = x.latch := rfl
@[simp] theorem setSlot_ar (x : Half) (g k : Nat) (b : Bool) : (x.setSlot g k b).ar = x.ar := rfl
@[simp] theorem setSlot_bundle (x : Half) (g k : Nat) (b : Bool) : (x.setSlot g k b).bundle = x.bundle := rfl
@[simp] theorem setSlot_run (x : Half) (g k : Nat) (b : Bool) : (x.setSlot g k b).run = x.run := rfl
@[simp] theorem setSlot_seq (x : Half) (g k : Nat) (b : Bool) : (x.setSlot g k b).seq = x.seq := rfl
@[simp] theorem setSlot_seqCopy (x : Half) (g k : Nat) (b : Bool) : (x.setSlot g k b).seqCopy = x.seqCopy := rfl
@[simp] theorem setSlot_pci (x : Half) (g k : Nat) (b : Bool) : (x.setSlot g k b).pci = x.pci := rfl
@[simp] theorem setSlot_mt (x : Half) (g k : Nat) (b : Bool) : (x.setSlot g k b).mt = x.mt := rfl
@[simp] theorem setSlot_txe (x : Half) (g k : Nat) (b : Bool) : (x.setSlot g k b).txe = x.txe := rfl
@[simp] theorem setSlot_eng (x : Half) (g k : Nat) (b : Bool) : (x.setSlot g k b).eng = x.eng := rfl
@[simp] theorem setSlot_asr (x : Half) (g k : Nat) (b : Bool) : (x.setSlot g k b).asr = x.asr := rfl
@[simp] theorem setSlot_ptm (x : Half) (g k : Nat) (b : Bool) : (x.setSlot g k b).ptm = x.ptm := rfl
@[simp] theorem setSlot_fab (x : Half) (g k : Nat) (b : Bool) : (x.setSlot g k b).fab = x.fab := rfl
@[simp] theorem setSlot_pins (x : Half) (g k : Nat) (b : Bool) : (x.setSlot g k b).pins = x.pins := rfl
@[simp] theorem setSlot_trc (x : Half) (g k : Nat) (b : Bool) : (x.setSlot g k b).trc = x.trc := rfl
@[simp] theorem setSlot_sys (x : Half) (g k : Nat) (b : Bool) : (x.setSlot g k b).sys = x.sys := rfl
@[simp] theorem setSlot_sec (x : Half) (g k : Nat) (b : Bool) : (x.setSlot g k b).sec = x.sec := rfl
@[simp] theorem setSlot_ctl (x : Half) (g k : Nat) (b : Bool) : (x.setSlot g k b).ctl = x.ctl := rfl
@[simp] theorem setSlot_out (x : Half) (g k : Nat) (b : Bool) : (x.setSlot g k b).out = x.out := rfl
@[simp] theorem setSlot_free (x : Half) (g k : Nat) (b : Bool) : (x.setSlot g k b).free = x.free := rfl
@[simp] theorem setSlot_reg (x : Half) (g k : Nat) (b : Bool) (off : Nat) : (x.setSlot g k b).reg off = x.reg off := rfl

@[simp] theorem setDin_self (x : Half) (l : List (Nat × Bool)) : (x.setDin l).self = x.self := rfl
@[simp] theorem setDin_regs (x : Half) (l : List (Nat × Bool)) : (x.setDin l).regs = x.regs := rfl
@[simp] theorem setDin_latch (x : Half) (l : List (Nat × Bool)) : (x.setDin l).latch = x.latch := rfl
@[simp] theorem setDin_mem (x : Half) (l : List (Nat × Bool)) : (x.setDin l).mem = x.mem := rfl
@[simp] theorem setDin_bundle (x : Half) (l : List (Nat × Bool)) : (x.setDin l).bundle = x.bundle := rfl
@[simp] theorem setDin_run (x : Half) (l : List (Nat × Bool)) : (x.setDin l).run = x.run := rfl
@[simp] theorem setDin_seq (x : Half) (l : List (Nat × Bool)) : (x.setDin l).seq = x.seq := rfl
@[simp] theorem setDin_seqCopy (x : Half) (l : List (Nat × Bool)) : (x.setDin l).seqCopy = x.seqCopy := rfl
@[simp] theorem setDin_pci (x : Half) (l : List (Nat × Bool)) : (x.setDin l).pci = x.pci := rfl
@[simp] theorem setDin_mt (x : Half) (l : List (Nat × Bool)) : (x.setDin l).mt = x.mt := rfl
@[simp] theorem setDin_txe (x : Half) (l : List (Nat × Bool)) : (x.setDin l).txe = x.txe := rfl
@[simp] theorem setDin_eng (x : Half) (l : List (Nat × Bool)) : (x.setDin l).eng = x.eng := rfl
@[simp] theorem setDin_asr (x : Half) (l : List (Nat × Bool)) : (x.setDin l).asr = x.asr := rfl
@[simp] theorem setDin_ptm (x : Half) (l : List (Nat × Bool)) : (x.setDin l).ptm = x.ptm := rfl
@[simp] theorem setDin_fab (x : Half) (l : List (Nat × Bool)) : (x.setDin l).fab = x.fab := rfl
@[simp] theorem setDin_pins (x : Half) (l : List (Nat × Bool)) : (x.setDin l).pins = x.pins := rfl
@[simp] theorem setDin_trc (x : Half) (l : List (Nat × Bool)) : (x.setDin l).trc = x.trc := rfl
@[simp] theorem setDin_sys (x : Half) (l : List (Nat × Bool)) : (x.setDin l).sys = x.sys := rfl
@[simp] theorem setDin_sec (x : Half) (l : List (Nat × Bool)) : (x.setDin l).sec = x.sec := rfl
@[simp] theorem setDin_ctl (x : Half) (l : List (Nat × Bool)) : (x.setDin l).ctl = x.ctl := rfl
@[simp] theorem setDin_out (x : Half) (l : List (Nat × Bool)) : (x.setDin l).out = x.out := rfl
@[simp] theorem setDin_free (x : Half) (l : List (Nat × Bool)) : (x.setDin l).free = x.free := rfl
@[simp] theorem setDin_reg (x : Half) (l : List (Nat × Bool)) (off : Nat) : (x.setDin l).reg off = x.reg off := rfl

@[simp] theorem advPc_self (x : Half) : (x.advPc).self = x.self := rfl
@[simp] theorem advPc_regs (x : Half) : (x.advPc).regs = x.regs := rfl
@[simp] theorem advPc_latch (x : Half) : (x.advPc).latch = x.latch := rfl
@[simp] theorem advPc_mem (x : Half) : (x.advPc).mem = x.mem := rfl
@[simp] theorem advPc_ar (x : Half) : (x.advPc).ar = x.ar := rfl
@[simp] theorem advPc_bundle (x : Half) : (x.advPc).bundle = x.bundle := rfl
@[simp] theorem advPc_run (x : Half) : (x.advPc).run = x.run := rfl
@[simp] theorem advPc_seqCopy (x : Half) : (x.advPc).seqCopy = x.seqCopy := rfl
@[simp] theorem advPc_pci (x : Half) : (x.advPc).pci = x.pci := rfl
@[simp] theorem advPc_mt (x : Half) : (x.advPc).mt = x.mt := rfl
@[simp] theorem advPc_txe (x : Half) : (x.advPc).txe = x.txe := rfl
@[simp] theorem advPc_eng (x : Half) : (x.advPc).eng = x.eng := rfl
@[simp] theorem advPc_asr (x : Half) : (x.advPc).asr = x.asr := rfl
@[simp] theorem advPc_ptm (x : Half) : (x.advPc).ptm = x.ptm := rfl
@[simp] theorem advPc_fab (x : Half) : (x.advPc).fab = x.fab := rfl
@[simp] theorem advPc_pins (x : Half) : (x.advPc).pins = x.pins := rfl
@[simp] theorem advPc_trc (x : Half) : (x.advPc).trc = x.trc := rfl
@[simp] theorem advPc_sys (x : Half) : (x.advPc).sys = x.sys := rfl
@[simp] theorem advPc_sec (x : Half) : (x.advPc).sec = x.sec := rfl
@[simp] theorem advPc_ctl (x : Half) : (x.advPc).ctl = x.ctl := rfl
@[simp] theorem advPc_out (x : Half) : (x.advPc).out = x.out := rfl
@[simp] theorem advPc_free (x : Half) : (x.advPc).free = x.free := rfl
@[simp] theorem advPc_reg (x : Half) (off : Nat) : (x.advPc).reg off = x.reg off := rfl

@[simp] theorem setCell_cell (x : Half) (c : Cells) : (x.setCell c).fab.cell = c := rfl
@[simp] theorem setStall_stall (x : Half) (f : StallPoint → StallPoint) : (x.setStall f).run.stall = x.run.stall.map f := rfl
@[simp] theorem advPc_pc (x : Half) : x.advPc.seq.pc = x.seq.pc + 1#14 := rfl
@[simp] theorem advPc_w (x : Half) : x.advPc.seq.w = x.seq.w := rfl

/-- What a register of the sequencer reads after a write of it; w0 stays 0 (R192). -/
theorem w_setW (x : Half) (i : BitVec 5) (v : DWord) : (x.setW i v).w i = if i = 0#5 then 0#64 else v := by
  unfold Half.w Half.setW
  by_cases h : i = 0#5 <;> simp [h]

/-- No other register of the sequencer changes with it. -/
theorem w_setW_ne (x : Half) {i j : BitVec 5} (v : DWord) (h : j ≠ i) : (x.setW i v).w j = x.w j := by
  have hn : j.toNat ≠ i.toNat := fun e => h (BitVec.eq_of_toNat_eq e)
  unfold Half.w Half.setW
  by_cases hi : i = 0#5 <;> simp [hi, sget_sput_ne _ _ _ _ hn]

end Sys2Proof.Machine
end

