-- ==== Sys2Proof/Laws/SeqWord.lean ====
section
/-!
SUPPORT. Laws/SeqWord.lean: the fields of an encoded word of the sequencer (R195).
-/

namespace Sys2Proof

/-- The bits of a field of a word of three parts above the opcode. -/
theorem seqOpField_append (hi : BitVec 26) (op : BitVec 6) : seqOpField (hi ++ op) = op.toNat := by
  simp only [seqOpField, BitVec.toNat_append]
  rw [show (64 : Nat) = 2 ^ 6 by rfl, ← Nat.shiftLeft_add_eq_or_of_lt op.isLt]
  simp [Nat.shiftLeft_eq, Nat.mod_eq_of_lt op.isLt]

@[simp] theorem seqOpField_R (op : BitVec 6) (d a b : BitVec 5) : seqOpField (seqR op d a b) = op.toNat := by
  rw [show seqR op d a b = (((0#11 ++ b) ++ a) ++ d) ++ op from ?_, seqOpField_append]
  ext i hi
  simp [seqR]
  grind

@[simp] theorem seqOpField_I (op : BitVec 6) (d a : BitVec 5) (i : BitVec 16) : seqOpField (seqI op d a i) = op.toNat := by
  rw [show seqI op d a i = ((i ++ a) ++ d) ++ op from ?_, seqOpField_append]
  ext j hj
  simp [seqI]
  grind

@[simp] theorem seqOpField_L (op : BitVec 6) (d : BitVec 5) (o : BitVec 21) : seqOpField (seqL op d o) = op.toNat := by
  rw [show seqL op d o = (o ++ d) ++ op from ?_, seqOpField_append]
  ext j hj
  simp [seqL]
  grind

@[simp] theorem seqWd_R (op : BitVec 6) (d a b : BitVec 5) : seqWd (seqR op d a b) = d := by
  ext j hj
  simp [seqWd, seqR]
  grind

@[simp] theorem seqWa_R (op : BitVec 6) (d a b : BitVec 5) : seqWa (seqR op d a b) = a := by
  ext j hj
  simp [seqWa, seqR]
  grind

@[simp] theorem seqWb_R (op : BitVec 6) (d a b : BitVec 5) : seqWb (seqR op d a b) = b := by
  ext j hj
  simp [seqWb, seqR]
  grind

@[simp] theorem seqWd_I (op : BitVec 6) (d a : BitVec 5) (i : BitVec 16) : seqWd (seqI op d a i) = d := by
  ext j hj
  simp [seqWd, seqI]
  grind

@[simp] theorem seqWa_I (op : BitVec 6) (d a : BitVec 5) (i : BitVec 16) : seqWa (seqI op d a i) = a := by
  ext j hj
  simp [seqWa, seqI]
  grind

@[simp] theorem seqImm_I (op : BitVec 6) (d a : BitVec 5) (i : BitVec 16) : seqImm (seqI op d a i) = i := by
  ext j hj
  simp [seqImm, seqI]
  grind

@[simp] theorem seqWd_L (op : BitVec 6) (d : BitVec 5) (o : BitVec 21) : seqWd (seqL op d o) = d := by
  ext j hj
  simp [seqWd, seqL]
  grind

@[simp] theorem seqOff_L (op : BitVec 6) (d : BitVec 5) (o : BitVec 21) : seqOff (seqL op d o) = o := by
  ext j hj
  simp [seqOff, seqL]
  grind

/-- An immediate below 2^k keeps its value under the mask of its k low bits. -/
theorem imm_mask (i m : BitVec 16) (k : Nat) (hm : m = BitVec.ofNat 16 (2 ^ k - 1)) (h : i.toNat < 2 ^ k) : i &&& m = i := by
  apply BitVec.eq_of_toNat_eq
  subst hm
  rw [BitVec.toNat_and, BitVec.toNat_ofNat]
  by_cases hk : k ≤ 16
  · have : 2 ^ k ≤ 2 ^ 16 := Nat.pow_le_pow_right (by omega) hk
    rw [Nat.mod_eq_of_lt (by have := Nat.two_pow_pos k; omega), Nat.and_two_pow_sub_one_eq_mod, Nat.mod_eq_of_lt h]
  · apply Nat.eq_of_testBit_eq
    intro j
    rw [Nat.testBit_and, Nat.testBit_mod_two_pow, Nat.testBit_two_pow_sub_one]
    by_cases hj : j < 16
    · simp [hj]; omega
    · have : i.toNat.testBit j = false := Nat.testBit_lt_two_pow (Nat.lt_of_lt_of_le i.isLt (Nat.pow_le_pow_right (by omega) (by omega)))
      simp [this]

end Sys2Proof
end

