-- ==== Sys2Proof/Laws/PerInstr.lean ====
section
/-!
SUPPORT. Laws/PerInstr.lean: the words of the commands, one lemma per command (R195, R196, R602): the word of a
well-formed instruction of the sequencer decodes to that instruction, every operand at every value its field admits; every
other command has no word.
-/

namespace Sys2Proof.Laws.SeqWord

set_option Elab.async false

/-- The word that stands for a command, if it has one, decodes to that command. -/
def Statement (i : Instr) : Prop :=
  ∀ w : Word, seqEncode i = some w → WellFormed i = true → ∃ h : HalfId, seqDecode h w = some i

/-- A command without a word. -/
theorem of_no_word {i : Instr} (h : seqEncode i = none) : Statement i := by
  intro w hw
  rw [h] at hw
  cases hw

/-- A command whose word decodes to it. -/
theorem of_word {i : Instr} {w : Word} (h : HalfId) (he : seqEncode i = some w)
    (hd : WellFormed i = true → seqDecode h w = some i) : Statement i := by
  intro v hv hw
  rw [he] at hv
  cases hv
  exact ⟨h, hd hw⟩

theorem registerWrite : ∀ h m addr data, Statement (.registerWrite h m addr data) := by
  intros; exact of_no_word rfl
theorem memoryRead : ∀ h m addr len, Statement (.memoryRead h m addr len) := by
  intros; exact of_no_word rfl
theorem memoryWrite : ∀ h m addr data, Statement (.memoryWrite h m addr data) := by
  intros; exact of_no_word rfl
theorem bitSetAliasWrite : ∀ h m addr data, Statement (.bitSetAliasWrite h m addr data) := by
  intros; exact of_no_word rfl
theorem bitClearAliasWrite : ∀ h m addr data, Statement (.bitClearAliasWrite h m addr data) := by
  intros; exact of_no_word rfl
theorem tick : ∀ h, Statement (.tick h) := by
  intros; exact of_no_word rfl
theorem idleDecision : ∀ h, Statement (.idleDecision h) := by
  intros; exact of_no_word rfl
theorem bpNop : ∀ x bp, Statement (.bpNop x bp) := by
  intros; exact of_no_word rfl
theorem eval : ∀ x w, Statement (.eval x w) := by
  intros; exact of_no_word rfl
theorem evalc : ∀ x w, Statement (.evalc x w) := by
  intros; exact of_no_word rfl
theorem trig : ∀ x w, Statement (.trig x w) := by
  intros; exact of_no_word rfl
theorem bpAssert : ∀ x w, Statement (.bpAssert x w) := by
  intros; exact of_no_word rfl
theorem switchInstruction : ∀ x tile, Statement (.switchInstruction x tile) := by
  intros; exact of_no_word rfl
theorem stallPointRelease : ∀ h n, Statement (.stallPointRelease h n) := by
  intros; exact of_no_word rfl
theorem eccWriteBack : ∀ h tile, Statement (.eccWriteBack h tile) := by
  intros; exact of_no_word rfl
theorem bridgeReceive : ∀ h tile e, Statement (.bridgeReceive h tile e) := by
  intros; exact of_no_word rfl
theorem bridgeTraining : Statement .bridgeTraining := of_no_word rfl
theorem bridgeDown : Statement .bridgeDown := of_no_word rfl
theorem bpaStatusWrite : ∀ h m tile v, Statement (.bpaStatusWrite h m tile v) := by
  intros; exact of_no_word rfl
theorem xchFaultStatusWrite : ∀ h m v, Statement (.xchFaultStatusWrite h m v) := by
  intros; exact of_no_word rfl
theorem xchBrgStatusWrite : ∀ h m v, Statement (.xchBrgStatusWrite h m v) := by
  intros; exact of_no_word rfl
theorem bundleEnable : ∀ h m b v, Statement (.bundleEnable h m b v) := by
  intros; exact of_no_word rfl
theorem bundleLock : ∀ h b past, Statement (.bundleLock h b past) := by
  intros; exact of_no_word rfl
theorem bundleAlign : ∀ h b, Statement (.bundleAlign h b) := by
  intros; exact of_no_word rfl
theorem bundleMeasureDone : ∀ h b, Statement (.bundleMeasureDone h b) := by
  intros; exact of_no_word rfl
theorem bundleTimeout : ∀ h b, Statement (.bundleTimeout h b) := by
  intros; exact of_no_word rfl
theorem bundleLaneLoss : ∀ h b lanes, Statement (.bundleLaneLoss h b lanes) := by
  intros; exact of_no_word rfl
theorem bundleDownTimer : ∀ h b, Statement (.bundleDownTimer h b) := by
  intros; exact of_no_word rfl
theorem trainBlock : ∀ h b w, Statement (.trainBlock h b w) := by
  intros; exact of_no_word rfl
theorem runBlock : ∀ h b q w, Statement (.runBlock h b q w) := by
  intros; exact of_no_word rfl
theorem startBlock : ∀ h b w, Statement (.startBlock h b w) := by
  intros; exact of_no_word rfl
theorem abortBlock : ∀ h b w, Statement (.abortBlock h b w) := by
  intros; exact of_no_word rfl
theorem dataPacket : ∀ h b chan pseq payload, Statement (.dataPacket h b chan pseq payload) := by
  intros; exact of_no_word rfl
theorem ackPacket : ∀ h b ackseq, Statement (.ackPacket h b ackseq) := by
  intros; exact of_no_word rfl
theorem nakPacket : ∀ h b ackseq, Statement (.nakPacket h b ackseq) := by
  intros; exact of_no_word rfl
theorem creditPacket : ∀ h b chan granted, Statement (.creditPacket h b chan granted) := by
  intros; exact of_no_word rfl
theorem creditRefresh : ∀ h b, Statement (.creditRefresh h b) := by
  intros; exact of_no_word rfl
theorem linkedStart : ∀ h, Statement (.linkedStart h) := by
  intros; exact of_no_word rfl
theorem linkedStallEval : ∀ h, Statement (.linkedStallEval h) := by
  intros; exact of_no_word rfl
theorem nop : ∀ h, Statement (.nop h) := by
  intro h
  exact of_word h rfl (fun _ => by simp [seqDecode])
theorem add : ∀ h wd wa wb, Statement (.add h wd wa wb) := by
  intro h wd wa wb
  exact of_word h rfl (fun _ => by simp [seqDecode])
theorem sub : ∀ h wd wa wb, Statement (.sub h wd wa wb) := by
  intro h wd wa wb
  exact of_word h rfl (fun _ => by simp [seqDecode])
theorem and : ∀ h wd wa wb, Statement (.and h wd wa wb) := by
  intro h wd wa wb
  exact of_word h rfl (fun _ => by simp [seqDecode])
theorem or : ∀ h wd wa wb, Statement (.or h wd wa wb) := by
  intro h wd wa wb
  exact of_word h rfl (fun _ => by simp [seqDecode])
theorem xor : ∀ h wd wa wb, Statement (.xor h wd wa wb) := by
  intro h wd wa wb
  exact of_word h rfl (fun _ => by simp [seqDecode])
theorem shl : ∀ h wd wa wb, Statement (.shl h wd wa wb) := by
  intro h wd wa wb
  exact of_word h rfl (fun _ => by simp [seqDecode])
theorem shr : ∀ h wd wa wb, Statement (.shr h wd wa wb) := by
  intro h wd wa wb
  exact of_word h rfl (fun _ => by simp [seqDecode])
theorem sra : ∀ h wd wa wb, Statement (.sra h wd wa wb) := by
  intro h wd wa wb
  exact of_word h rfl (fun _ => by simp [seqDecode])
theorem clt : ∀ h wd wa wb, Statement (.clt h wd wa wb) := by
  intro h wd wa wb
  exact of_word h rfl (fun _ => by simp [seqDecode])
theorem cltu : ∀ h wd wa wb, Statement (.cltu h wd wa wb) := by
  intro h wd wa wb
  exact of_word h rfl (fun _ => by simp [seqDecode])
theorem mul : ∀ h wd wa wb, Statement (.mul h wd wa wb) := by
  intro h wd wa wb
  exact of_word h rfl (fun _ => by simp [seqDecode])
theorem addi : ∀ h wd wa imm, Statement (.addi h wd wa imm) := by
  intro h wd wa imm
  exact of_word h rfl (fun _ => by simp [seqDecode])
theorem andi : ∀ h wd wa imm, Statement (.andi h wd wa imm) := by
  intro h wd wa imm
  exact of_word h rfl (fun _ => by simp [seqDecode])
theorem ori : ∀ h wd wa imm, Statement (.ori h wd wa imm) := by
  intro h wd wa imm
  exact of_word h rfl (fun _ => by simp [seqDecode])
theorem xori : ∀ h wd wa imm, Statement (.xori h wd wa imm) := by
  intro h wd wa imm
  exact of_word h rfl (fun _ => by simp [seqDecode])
theorem shli : ∀ h wd wa imm, Statement (.shli h wd wa imm) := by
  intro h wd wa imm
  refine of_word h rfl (fun hw => ?_)
  have hm : imm &&& 0x003F#16 = imm := imm_mask _ _ 6 rfl (by simpa [WellFormed] using hw)
  simp [seqDecode, hm]
theorem shri : ∀ h wd wa imm, Statement (.shri h wd wa imm) := by
  intro h wd wa imm
  refine of_word h rfl (fun hw => ?_)
  have hm : imm &&& 0x003F#16 = imm := imm_mask _ _ 6 rfl (by simpa [WellFormed] using hw)
  simp [seqDecode, hm]
theorem uppi : ∀ h wd imm, Statement (.uppi h wd imm) := by
  intro h wd imm
  exact of_word h rfl (fun _ => by simp [seqDecode])
theorem ld : ∀ h wd wa imm, Statement (.ld h wd wa imm) := by
  intro h wd wa imm
  exact of_word h rfl (fun _ => by simp [seqDecode])
theorem st : ∀ h wd wa imm, Statement (.st h wd wa imm) := by
  intro h wd wa imm
  exact of_word h rfl (fun _ => by simp [seqDecode])
theorem rdc : ∀ h wd wa imm, Statement (.rdc h wd wa imm) := by
  intro h wd wa imm
  exact of_word h rfl (fun _ => by simp [seqDecode])
theorem wrc : ∀ h wd wa imm, Statement (.wrc h wd wa imm) := by
  intro h wd wa imm
  exact of_word h rfl (fun _ => by simp [seqDecode])
theorem rdt : ∀ h wd imm, Statement (.rdt h wd imm) := by
  intro h wd imm
  refine of_word h rfl (fun hw => ?_)
  have hm : imm &&& 0x000F#16 = imm := imm_mask _ _ 4 rfl (by simpa [WellFormed] using hw)
  simp [seqDecode, hm]
theorem domen : ∀ h wd imm, Statement (.domen h wd imm) := by
  intro h wd imm
  refine of_word h rfl (fun hw => ?_)
  have hm : imm &&& 0x01FF#16 = imm := imm_mask _ _ 9 rfl (by simpa [WellFormed] using hw)
  simp [seqDecode, hm]
theorem halt : ∀ h, Statement (.halt h) := by
  intro h
  exact of_word h rfl (fun _ => by simp [seqDecode])
theorem beq : ∀ h wd wa imm, Statement (.beq h wd wa imm) := by
  intro h wd wa imm
  exact of_word h rfl (fun _ => by simp [seqDecode])
theorem bne : ∀ h wd wa imm, Statement (.bne h wd wa imm) := by
  intro h wd wa imm
  exact of_word h rfl (fun _ => by simp [seqDecode])
theorem blt : ∀ h wd wa imm, Statement (.blt h wd wa imm) := by
  intro h wd wa imm
  exact of_word h rfl (fun _ => by simp [seqDecode])
theorem bge : ∀ h wd wa imm, Statement (.bge h wd wa imm) := by
  intro h wd wa imm
  exact of_word h rfl (fun _ => by simp [seqDecode])
theorem bltu : ∀ h wd wa imm, Statement (.bltu h wd wa imm) := by
  intro h wd wa imm
  exact of_word h rfl (fun _ => by simp [seqDecode])
theorem bgeu : ∀ h wd wa imm, Statement (.bgeu h wd wa imm) := by
  intro h wd wa imm
  exact of_word h rfl (fun _ => by simp [seqDecode])
theorem jmp : ∀ h off, Statement (.jmp h off) := by
  intro h off
  exact of_word h rfl (fun _ => by simp [seqDecode])
theorem call : ∀ h wd off, Statement (.call h wd off) := by
  intro h wd off
  exact of_word h rfl (fun _ => by simp [seqDecode])
theorem jmpr : ∀ h wa, Statement (.jmpr h wa) := by
  intro h wa
  exact of_word h rfl (fun _ => by simp [seqDecode])
theorem go : ∀ h wd, Statement (.go h wd) := by
  intro h wd
  exact of_word h rfl (fun _ => by simp [seqDecode])
theorem runc : ∀ h wd wa, Statement (.runc h wd wa) := by
  intro h wd wa
  exact of_word h rfl (fun _ => by simp [seqDecode])
theorem runt : ∀ h wd wa, Statement (.runt h wd wa) := by
  intro h wd wa
  exact of_word h rfl (fun _ => by simp [seqDecode])
theorem hold : ∀ h wd, Statement (.hold h wd) := by
  intro h wd
  exact of_word h rfl (fun _ => by simp [seqDecode])
theorem stop : ∀ h wd, Statement (.stop h wd) := by
  intro h wd
  exact of_word h rfl (fun _ => by simp [seqDecode])
theorem waite : ∀ h wd wa, Statement (.waite h wd wa) := by
  intro h wd wa
  exact of_word h rfl (fun _ => by simp [seqDecode])
theorem waiteTimeout : ∀ h, Statement (.waiteTimeout h) := by
  intros; exact of_no_word rfl
theorem restore : ∀ h wd wa, Statement (.restore h wd wa) := by
  intro h wd wa
  exact of_word h rfl (fun _ => by simp [seqDecode])
theorem fallow : ∀ h wd, Statement (.fallow h wd) := by
  intro h wd
  exact of_word h rfl (fun _ => by simp [seqDecode])
theorem even : ∀ h imm, Statement (.even h imm) := by
  intro h imm
  refine of_word h rfl (fun hw => ?_)
  have hm : imm &&& 0x01FF#16 = imm := imm_mask _ _ 9 rfl (by simpa [WellFormed] using hw)
  simp [seqDecode, hm]
theorem evdis : ∀ h imm, Statement (.evdis h imm) := by
  intro h imm
  refine of_word h rfl (fun hw => ?_)
  have hm : imm &&& 0x01FF#16 = imm := imm_mask _ _ 9 rfl (by simpa [WellFormed] using hw)
  simp [seqDecode, hm]
theorem evclr : ∀ h imm, Statement (.evclr h imm) := by
  intro h imm
  refine of_word h rfl (fun hw => ?_)
  have hm : imm &&& 0x01FF#16 = imm := imm_mask _ _ 9 rfl (by simpa [WellFormed] using hw)
  simp [seqDecode, hm]
theorem evact : ∀ h imm, Statement (.evact h imm) := by
  intro h imm
  refine of_word h rfl (fun hw => ?_)
  have hm : imm &&& 0x07FF#16 = imm := imm_mask _ _ 11 rfl (by simpa [WellFormed] using hw)
  simp [seqDecode, hm]
theorem arm : ∀ h wd wa imm, Statement (.arm h wd wa imm) := by
  intro h wd wa imm
  refine of_word h rfl (fun hw => ?_)
  have hm : imm &&& 0x00FF#16 = imm := imm_mask _ _ 8 rfl (by simpa [WellFormed] using hw)
  simp [seqDecode, hm]
theorem abrt : ∀ h wd imm, Statement (.abrt h wd imm) := by
  intro h wd imm
  refine of_word h rfl (fun hw => ?_)
  have hm : imm &&& 0x00FF#16 = imm := imm_mask _ _ 8 rfl (by simpa [WellFormed] using hw)
  simp [seqDecode, hm]
theorem ckpt : ∀ h wd imm, Statement (.ckpt h wd imm) := by
  intro h wd imm
  refine of_word h rfl (fun hw => ?_)
  have hm : imm &&& 0x0001#16 = imm := imm_mask _ _ 1 rfl (by simpa [WellFormed] using hw)
  simp [seqDecode, hm]
theorem sig : ∀ h wa imm, Statement (.sig h wa imm) := by
  intro h wa imm
  refine of_word h rfl (fun hw => ?_)
  have hm : imm &&& 0x00FF#16 = imm := imm_mask _ _ 8 rfl (by simpa [WellFormed] using hw)
  simp [seqDecode, hm]
theorem doorbell : ∀ h m, Statement (.doorbell h m) := by
  intros; exact of_no_word rfl
theorem stopReq : ∀ h m, Statement (.stopReq h m) := by
  intros; exact of_no_word rfl
theorem releaseReq : ∀ h m, Statement (.releaseReq h m) := by
  intros; exact of_no_word rfl
theorem holdReq : ∀ h m, Statement (.holdReq h m) := by
  intros; exact of_no_word rfl
theorem seqCtrlHalt : ∀ h m, Statement (.seqCtrlHalt h m) := by
  intros; exact of_no_word rfl
theorem seqExec : ∀ h m, Statement (.seqExec h m) := by
  intros; exact of_no_word rfl
theorem seqFaultClear : ∀ h m v, Statement (.seqFaultClear h m v) := by
  intros; exact of_no_word rfl
theorem seqTimerExpiry : ∀ h, Statement (.seqTimerExpiry h) := by
  intros; exact of_no_word rfl
theorem edgDescWrite : ∀ h m slot word v, Statement (.edgDescWrite h m slot word v) := by
  intros; exact of_no_word rfl
theorem extEdgeEvent : ∀ h dom falling, Statement (.extEdgeEvent h dom falling) := by
  intros; exact of_no_word rfl
theorem bankAccess : ∀ h, Statement (.bankAccess h) := by
  intros; exact of_no_word rfl
theorem bankReadReturn : ∀ h, Statement (.bankReadReturn h) := by
  intros; exact of_no_word rfl
theorem hbmReadReturn : ∀ h tile port, Statement (.hbmReadReturn h tile port) := by
  intros; exact of_no_word rfl
theorem hbmPostedWrite : ∀ h tile port, Statement (.hbmPostedWrite h tile port) := by
  intros; exact of_no_word rfl
theorem hbmPatrol : ∀ h addr, Statement (.hbmPatrol h addr) := by
  intros; exact of_no_word rfl
theorem memErrStatusWrite : ∀ h m v, Statement (.memErrStatusWrite h m v) := by
  intros; exact of_no_word rfl
theorem marchStart : ∀ h m v, Statement (.marchStart h m v) := by
  intros; exact of_no_word rfl
theorem marchAbort : ∀ h m found, Statement (.marchAbort h m found) := by
  intros; exact of_no_word rfl
theorem marchDone : ∀ h found, Statement (.marchDone h found) := by
  intros; exact of_no_word rfl
theorem bgtEnable : ∀ h m v, Statement (.bgtEnable h m v) := by
  intros; exact of_no_word rfl
theorem bgtRegion : ∀ h failBit, Statement (.bgtRegion h failBit) := by
  intros; exact of_no_word rfl
theorem sqDoorbell : ∀ h m q tail, Statement (.sqDoorbell h m q tail) := by
  intros; exact of_no_word rfl
theorem create : ∀ h q entry, Statement (.create h q entry) := by
  intros; exact of_no_word rfl
theorem fill : ∀ h q entry, Statement (.fill h q entry) := by
  intros; exact of_no_word rfl
theorem sqAbort : ∀ h q entry, Statement (.sqAbort h q entry) := by
  intros; exact of_no_word rfl
theorem hOperandAccept : ∀ h tid payload, Statement (.hOperandAccept h tid payload) := by
  intros; exact of_no_word rfl
theorem dispatch : ∀ h, Statement (.dispatch h) := by
  intros; exact of_no_word rfl
theorem transactionComplete : ∀ h tid, Statement (.transactionComplete h tid) := by
  intros; exact of_no_word rfl
theorem txeTimeout : ∀ h tid, Statement (.txeTimeout h tid) := by
  intros; exact of_no_word rfl
theorem txeAbort : ∀ h m v, Statement (.txeAbort h m v) := by
  intros; exact of_no_word rfl
theorem cqHeadWrite : ∀ h m q v, Statement (.cqHeadWrite h m q v) := by
  intros; exact of_no_word rfl
theorem sqEnable : ∀ h m q v, Statement (.sqEnable h m q v) := by
  intros; exact of_no_word rfl
theorem cqEnable : ∀ h m q v, Statement (.cqEnable h m q v) := by
  intros; exact of_no_word rfl
theorem engineArm : ∀ h m k e v, Statement (.engineArm h m k e v) := by
  intros; exact of_no_word rfl
theorem armComplete : ∀ h k e, Statement (.armComplete h k e) := by
  intros; exact of_no_word rfl
theorem engineAbort : ∀ h m k e v, Statement (.engineAbort h m k e v) := by
  intros; exact of_no_word rfl
theorem xoAction : ∀ h e, Statement (.xoAction h e) := by
  intros; exact of_no_word rfl
theorem xoPulseEnd : ∀ h e, Statement (.xoPulseEnd h e) := by
  intros; exact of_no_word rfl
theorem recordDrain : ∀ h c, Statement (.recordDrain h c) := by
  intros; exact of_no_word rfl
theorem hostStreamWrite : ∀ h c ok, Statement (.hostStreamWrite h c ok) := by
  intros; exact of_no_word rfl
theorem capHsHeadWrite : ∀ h m c v, Statement (.capHsHeadWrite h m c v) := by
  intros; exact of_no_word rfl
theorem playbackPrefetch : ∀ h p, Statement (.playbackPrefetch h p) := by
  intros; exact of_no_word rfl
theorem asrEnWrite : ∀ h m v, Statement (.asrEnWrite h m v) := by
  intros; exact of_no_word rfl
theorem ckptReq : ∀ h m, Statement (.ckptReq h m) := by
  intros; exact of_no_word rfl
theorem abortCkpt : ∀ h m, Statement (.abortCkpt h m) := by
  intros; exact of_no_word rfl
theorem scheduledCheckpoint : ∀ h, Statement (.scheduledCheckpoint h) := by
  intros; exact of_no_word rfl
theorem checkpointCopyDone : ∀ h ok, Statement (.checkpointCopyDone h ok) := by
  intros; exact of_no_word rfl
theorem checkpointCommit : ∀ h ok, Statement (.checkpointCommit h ok) := by
  intros; exact of_no_word rfl
theorem journalConfirm : ∀ h jseq, Statement (.journalConfirm h jseq) := by
  intros; exact of_no_word rfl
theorem signatureCompare : ∀ h, Statement (.signatureCompare h) := by
  intros; exact of_no_word rfl
theorem recovery : ∀ h c, Statement (.recovery h c) := by
  intros; exact of_no_word rfl
theorem storeRewriteDone : ∀ h, Statement (.storeRewriteDone h) := by
  intros; exact of_no_word rfl
theorem restoreDone : ∀ h newReadable oldReadable, Statement (.restoreDone h newReadable oldReadable) := by
  intros; exact of_no_word rfl
theorem replayEnd : ∀ h, Statement (.replayEnd h) := by
  intros; exact of_no_word rfl
theorem diagnosis : ∀ h, Statement (.diagnosis h) := by
  intros; exact of_no_word rfl
theorem diagnosisDone : ∀ h fail0 fail1, Statement (.diagnosisDone h fail0 fail1) := by
  intros; exact of_no_word rfl
theorem heartbeat : ∀ h sideband, Statement (.heartbeat h sideband) := by
  intros; exact of_no_word rfl
theorem heartbeatLoss : ∀ h c, Statement (.heartbeatLoss h c) := by
  intros; exact of_no_word rfl
theorem takeover : ∀ h, Statement (.takeover h) := by
  intros; exact of_no_word rfl
theorem asrExport : ∀ h m partner, Statement (.asrExport h m partner) := by
  intros; exact of_no_word rfl
theorem asrImport : ∀ h m, Statement (.asrImport h m) := by
  intros; exact of_no_word rfl
theorem exportDone : ∀ h, Statement (.exportDone h) := by
  intros; exact of_no_word rfl
theorem importDone : ∀ h, Statement (.importDone h) := by
  intros; exact of_no_word rfl
theorem fabricLoad : ∀ h m v, Statement (.fabricLoad h m v) := by
  intros; exact of_no_word rfl
theorem fabricLoadCommit : ∀ h, Statement (.fabricLoadCommit h) := by
  intros; exact of_no_word rfl
theorem fabricRelease : ∀ h m v, Statement (.fabricRelease h m v) := by
  intros; exact of_no_word rfl
theorem fabricReleaseStage : ∀ h, Statement (.fabricReleaseStage h) := by
  intros; exact of_no_word rfl
theorem afbAbort : ∀ h m v, Statement (.afbAbort h m v) := by
  intros; exact of_no_word rfl
theorem longLineContention : ∀ h line sites, Statement (.longLineContention h line sites) := by
  intros; exact of_no_word rfl
theorem afbLlDisWrite : ∀ h m hi v, Statement (.afbLlDisWrite h m hi v) := by
  intros; exact of_no_word rfl
theorem oscLock : ∀ h k, Statement (.oscLock h k) := by
  intros; exact of_no_word rfl
theorem trimPortWrite : ∀ h k trim, Statement (.trimPortWrite h k trim) := by
  intros; exact of_no_word rfl
theorem flashProgram : ∀ h m, Statement (.flashProgram h m) := by
  intros; exact of_no_word rfl
theorem flashErase : ∀ h m, Statement (.flashErase h m) := by
  intros; exact of_no_word rfl
theorem flashRead : ∀ h m, Statement (.flashRead h m) := by
  intros; exact of_no_word rfl
theorem flashCommandDone : ∀ h, Statement (.flashCommandDone h) := by
  intros; exact of_no_word rfl
theorem channelPush : ∀ h k bits, Statement (.channelPush h k bits) := by
  intros; exact of_no_word rfl
theorem fabricAck : ∀ h c, Statement (.fabricAck h c) := by
  intros; exact of_no_word rfl
theorem outHoldRelease : ∀ h, Statement (.outHoldRelease h) := by
  intros; exact of_no_word rfl
theorem fabricDoorbell : ∀ h q tail, Statement (.fabricDoorbell h q tail) := by
  intros; exact of_no_word rfl
theorem fabricRequest : ∀ h code, Statement (.fabricRequest h code) := by
  intros; exact of_no_word rfl
theorem fabricHbmAccess : ∀ h write addr data, Statement (.fabricHbmAccess h write addr data) := by
  intros; exact of_no_word rfl
theorem pinFunctionSwitch : ∀ h m off v, Statement (.pinFunctionSwitch h m off v) := by
  intros; exact of_no_word rfl
theorem pinBankVioWrite : ∀ h m v, Statement (.pinBankVioWrite h m v) := by
  intros; exact of_no_word rfl
theorem vioSettled : ∀ h bank, Statement (.vioSettled h bank) := by
  intros; exact of_no_word rfl
theorem pinDataSet : ∀ h m hi v, Statement (.pinDataSet h m hi v) := by
  intros; exact of_no_word rfl
theorem pinDataClr : ∀ h m hi v, Statement (.pinDataClr h m hi v) := by
  intros; exact of_no_word rfl
theorem pinInputChange : ∀ h pin level, Statement (.pinInputChange h pin level) := by
  intros; exact of_no_word rfl
theorem debounceChange : ∀ h pin, Statement (.debounceChange h pin) := by
  intros; exact of_no_word rfl
theorem pinDsnInWrite : ∀ h m v, Statement (.pinDsnInWrite h m v) := by
  intros; exact of_no_word rfl
theorem laneEnable : ∀ h m l v, Statement (.laneEnable h m l v) := by
  intros; exact of_no_word rfl
theorem cdrLock : ∀ h l, Statement (.cdrLock h l) := by
  intros; exact of_no_word rfl
theorem laneLoss : ∀ h l cdr, Statement (.laneLoss h l cdr) := by
  intros; exact of_no_word rfl
theorem quadRateWrite : ∀ h m q v, Statement (.quadRateWrite h m q v) := by
  intros; exact of_no_word rfl
theorem pllLock : ∀ h q pllB, Statement (.pllLock h q pllB) := by
  intros; exact of_no_word rfl
theorem hostRequest : ∀ h bar off write len data, Statement (.hostRequest h bar off write len data) := by
  intros; exact of_no_word rfl
theorem linkDown : ∀ h, Statement (.linkDown h) := by
  intros; exact of_no_word rfl
theorem linkUp : ∀ h speed width, Statement (.linkUp h speed width) := by
  intros; exact of_no_word rfl
theorem msixUnmask : ∀ h vec, Statement (.msixUnmask h vec) := by
  intros; exact of_no_word rfl
theorem hostFault : ∀ h tid, Statement (.hostFault h tid) := by
  intros; exact of_no_word rfl
theorem ethFrameReceive : ∀ h f, Statement (.ethFrameReceive h f) := by
  intros; exact of_no_word rfl
theorem ethFrameTransmit : ∀ h, Statement (.ethFrameTransmit h) := by
  intros; exact of_no_word rfl
theorem lnkMeCfgWrite : ∀ h m v, Statement (.lnkMeCfgWrite h m v) := by
  intros; exact of_no_word rfl
theorem ptmTimeSecLoRead : ∀ h m, Statement (.ptmTimeSecLoRead h m) := by
  intros; exact of_no_word rfl
theorem setTime : ∀ h m v, Statement (.setTime h m v) := by
  intros; exact of_no_word rfl
theorem servoReset : ∀ h m v, Statement (.servoReset h m v) := by
  intros; exact of_no_word rfl
theorem announce : ∀ h msg utcOffset clockClass steps, Statement (.announce h msg utcOffset clockClass steps) := by
  intros; exact of_no_word rfl
theorem sync : ∀ h msg twoStep t1 correction t2, Statement (.sync h msg twoStep t1 correction t2) := by
  intros; exact of_no_word rfl
theorem followUp : ∀ h msg t1 correction, Statement (.followUp h msg t1 correction) := by
  intros; exact of_no_word rfl
theorem delayResp : ∀ h msg logMinDelay t4 correction, Statement (.delayResp h msg logMinDelay t4 correction) := by
  intros; exact of_no_word rfl
theorem delayReq : ∀ h domB, Statement (.delayReq h domB) := by
  intros; exact of_no_word rfl
theorem masterTimeout : ∀ h domB, Statement (.masterTimeout h domB) := by
  intros; exact of_no_word rfl
theorem holdoverExpiry : ∀ h, Statement (.holdoverExpiry h) := by
  intros; exact of_no_word rfl
theorem tpoArm : ∀ h m k v, Statement (.tpoArm h m k v) := by
  intros; exact of_no_word rfl
theorem disarm : ∀ h m k, Statement (.disarm h m k) := by
  intros; exact of_no_word rfl
theorem tpoEdge : ∀ h k, Statement (.tpoEdge h k) := by
  intros; exact of_no_word rfl
theorem ptmTxtsIdRead : ∀ h m, Statement (.ptmTxtsIdRead h m) := by
  intros; exact of_no_word rfl
theorem ptmTcapIdRead : ∀ h m k, Statement (.ptmTcapIdRead h m k) := by
  intros; exact of_no_word rfl
theorem ptmDsnWrite : ∀ h m v, Statement (.ptmDsnWrite h m v) := by
  intros; exact of_no_word rfl
theorem nocTimeout : ∀ h c, Statement (.nocTimeout h c) := by
  intros; exact of_no_word rfl
theorem probeMatch : ∀ h k p, Statement (.probeMatch h k p) := by
  intros; exact of_no_word rfl
theorem probeClear : ∀ h m k v, Statement (.probeClear h m k v) := by
  intros; exact of_no_word rfl
theorem traceEnable : ∀ h m v, Statement (.traceEnable h m v) := by
  intros; exact of_no_word rfl
theorem trcGo : ∀ h m, Statement (.trcGo h m) := by
  intros; exact of_no_word rfl
theorem trcRestart : ∀ h m, Statement (.trcRestart h m) := by
  intros; exact of_no_word rfl
theorem tracePeriodicSync : ∀ h, Statement (.tracePeriodicSync h) := by
  intros; exact of_no_word rfl
theorem trcStwLogWrite : ∀ h m v, Statement (.trcStwLogWrite h m v) := by
  intros; exact of_no_word rfl
theorem trcStwEndWrite : ∀ h m, Statement (.trcStwEndWrite h m) := by
  intros; exact of_no_word rfl
theorem feedStateChange : ∀ h feedB e tenMv, Statement (.feedStateChange h feedB e tenMv) := by
  intros; exact of_no_word rfl
theorem powerFail : Statement .powerFail := of_no_word rfl
theorem powerFailRelease : Statement .powerFailRelease := of_no_word rfl
theorem thermalSample : ∀ h tj powerW, Statement (.thermalSample h tj powerW) := by
  intros; exact of_no_word rfl
theorem throttleSwitch : ∀ h, Statement (.throttleSwitch h) := by
  intros; exact of_no_word rfl
theorem sourceInvalid : ∀ h src, Statement (.sourceInvalid h src) := by
  intros; exact of_no_word rfl
theorem holdoverTimeout : ∀ h, Statement (.holdoverTimeout h) := by
  intros; exact of_no_word rfl
theorem clkRefCfgWrite : ∀ h m v, Statement (.clkRefCfgWrite h m v) := by
  intros; exact of_no_word rfl
theorem wakeTimer : ∀ h, Statement (.wakeTimer h) := by
  intros; exact of_no_word rfl
theorem fallowExit : ∀ h, Statement (.fallowExit h) := by
  intros; exact of_no_word rfl
theorem por : Statement .por := of_no_word rfl
theorem modRst : Statement .modRst := of_no_word rfl
theorem halfSw : ∀ h m, Statement (.halfSw h m) := by
  intros; exact of_no_word rfl
theorem watchdog : ∀ h, Statement (.watchdog h) := by
  intros; exact of_no_word rfl
theorem kick : ∀ h m v, Statement (.kick h m v) := by
  intros; exact of_no_word rfl
theorem perst : ∀ h, Statement (.perst h) := by
  intros; exact of_no_word rfl
theorem hotReset : ∀ h, Statement (.hotReset h) := by
  intros; exact of_no_word rfl
theorem flr : ∀ h, Statement (.flr h) := by
  intros; exact of_no_word rfl
theorem blockSw : ∀ h m v, Statement (.blockSw h m v) := by
  intros; exact of_no_word rfl
theorem trst : Statement .trst := of_no_word rfl
theorem resetRelease : ∀ h src, Statement (.resetRelease h src) := by
  intros; exact of_no_word rfl
theorem releaseStage : ∀ h ok flags, Statement (.releaseStage h ok flags) := by
  intros; exact of_no_word rfl
theorem mbxStatus : ∀ h k, Statement (.mbxStatus h k) := by
  intros; exact of_no_word rfl
theorem hostEnable : ∀ h k, Statement (.hostEnable h k) := by
  intros; exact of_no_word rfl
theorem loadImage : ∀ h k, Statement (.loadImage h k) := by
  intros; exact of_no_word rfl
theorem mailboxFallow : ∀ h k, Statement (.mailboxFallow h k) := by
  intros; exact of_no_word rfl
theorem wake : ∀ h k, Statement (.wake h k) := by
  intros; exact of_no_word rfl
theorem halfReset : ∀ h k, Statement (.halfReset h k) := by
  intros; exact of_no_word rfl
theorem readStop : ∀ h k, Statement (.readStop h k) := by
  intros; exact of_no_word rfl
theorem clearStop : ∀ h k, Statement (.clearStop h k) := by
  intros; exact of_no_word rfl
theorem getMeas : ∀ h k, Statement (.getMeas h k) := by
  intros; exact of_no_word rfl
theorem attest : ∀ h k, Statement (.attest h k) := by
  intros; exact of_no_word rfl
theorem getCert : ∀ h k, Statement (.getCert h k) := by
  intros; exact of_no_word rfl
theorem extend : ∀ h k, Statement (.extend h k) := by
  intros; exact of_no_word rfl
theorem provision : ∀ h k, Statement (.provision h k) := by
  intros; exact of_no_word rfl
theorem certWrite : ∀ h k, Statement (.certWrite h k) := by
  intros; exact of_no_word rfl
theorem takeOwnership : ∀ h k, Statement (.takeOwnership h k) := by
  intros; exact of_no_word rfl
theorem getNonce : ∀ h k, Statement (.getNonce h k) := by
  intros; exact of_no_word rfl
theorem ownerAction : ∀ h k, Statement (.ownerAction h k) := by
  intros; exact of_no_word rfl
theorem unlockPwd : ∀ h k, Statement (.unlockPwd h k) := by
  intros; exact of_no_word rfl
theorem debugClose : ∀ h k, Statement (.debugClose h k) := by
  intros; exact of_no_word rfl
theorem scrap : ∀ h k, Statement (.scrap h k) := by
  intros; exact of_no_word rfl
theorem fwStage : ∀ h k, Statement (.fwStage h k) := by
  intros; exact of_no_word rfl
theorem getVersion : ∀ h, Statement (.getVersion h) := by
  intros; exact of_no_word rfl
theorem getCapabilities : ∀ h, Statement (.getCapabilities h) := by
  intros; exact of_no_word rfl
theorem negotiateAlgorithms : ∀ h, Statement (.negotiateAlgorithms h) := by
  intros; exact of_no_word rfl
theorem getDigests : ∀ h, Statement (.getDigests h) := by
  intros; exact of_no_word rfl
theorem getCertificate : ∀ h slot off len, Statement (.getCertificate h slot off len) := by
  intros; exact of_no_word rfl
theorem challenge : ∀ h slot nonce, Statement (.challenge h slot nonce) := by
  intros; exact of_no_word rfl
theorem getMeasurements : ∀ h index nonce, Statement (.getMeasurements h index nonce) := by
  intros; exact of_no_word rfl
theorem extest : ∀ h drive enable, Statement (.extest h drive enable) := by
  intros; exact of_no_word rfl
theorem samplePreload : ∀ h preload, Statement (.samplePreload h preload) := by
  intros; exact of_no_word rfl
theorem idcode : ∀ h, Statement (.idcode h) := by
  intros; exact of_no_word rfl
theorem flashProg : ∀ h write addr data, Statement (.flashProg h write addr data) := by
  intros; exact of_no_word rfl
theorem ctrlAccess : ∀ h write addr v, Statement (.ctrlAccess h write addr v) := by
  intros; exact of_no_word rfl
theorem stwHalt : ∀ h halted, Statement (.stwHalt h halted) := by
  intros; exact of_no_word rfl
theorem bypass : ∀ h, Statement (.bypass h) := by
  intros; exact of_no_word rfl
theorem tamperTrip : ∀ h sensors, Statement (.tamperTrip h sensors) := by
  intros; exact of_no_word rfl
theorem lockoutExpiry : ∀ h, Statement (.lockoutExpiry h) := by
  intros; exact of_no_word rfl
theorem nonceExpiry : ∀ h, Statement (.nonceExpiry h) := by
  intros; exact of_no_word rfl
theorem secLock : ∀ h m v, Statement (.secLock h m v) := by
  intros; exact of_no_word rfl
theorem idleBlock : ∀ h b w, Statement (.idleBlock h b w) := by
  intros; exact of_no_word rfl
theorem linkChg : ∀ h blockLock hiBer, Statement (.linkChg h blockLock hiBer) := by
  intros; exact of_no_word rfl
theorem laneSync : ∀ h l, Statement (.laneSync h l) := by
  intros; exact of_no_word rfl
theorem configurationRequest : ∀ h c, Statement (.configurationRequest h c) := by
  intros; exact of_no_word rfl
theorem sourceValid : ∀ h src, Statement (.sourceValid h src) := by
  intros; exact of_no_word rfl
theorem rootPllLock : ∀ h, Statement (.rootPllLock h) := by
  intros; exact of_no_word rfl
theorem stopRecordDone : Statement .stopRecordDone := of_no_word rfl
theorem imageLoadDone : ∀ h, Statement (.imageLoadDone h) := by
  intros; exact of_no_word rfl
theorem domainNotValid : ∀ h domB, Statement (.domainNotValid h domB) := by
  intros; exact of_no_word rfl
theorem revert : ∀ h, Statement (.revert h) := by
  intros; exact of_no_word rfl

end Sys2Proof.Laws.SeqWord
end

