-- ==== Sys2Proof/Laws/Shared.lean ====
section
/-!
SUPPORT. Laws/Shared.lean: what the shared operations can change. An operation that sends a message changes the outputs and the
endpoint's queues alone; one that reports in a register, the registers too; one that raises an event, also the sequencer, the
run's request and the trace FIFOs. Everything else stays: memory, the array, bundles, engines, transactions, pins.
-/

namespace Sys2Proof.Machine

/-- `y` is `x` but for registers, sequencer, run, trace, endpoint and outputs. -/
structure Half.Keeps (x y : Half) : Prop where
  self : y.self = x.self
  latch : y.latch = x.latch
  mem : y.mem = x.mem
  ar : y.ar = x.ar
  bundle : y.bundle = x.bundle
  seqCopy : y.seqCopy = x.seqCopy
  mt : y.mt = x.mt
  txe : y.txe = x.txe
  eng : y.eng = x.eng
  asr : y.asr = x.asr
  ptm : y.ptm = x.ptm
  fab : y.fab = x.fab
  pins : y.pins = x.pins
  sys : y.sys = x.sys
  sec : y.sec = x.sec
  ctl : y.ctl = x.ctl
  free : y.free = x.free

/-- `y` is `x` but for registers, endpoint and outputs. -/
structure Half.Reports (x y : Half) : Prop extends Half.Keeps x y where
  seq : y.seq = x.seq
  run : y.run = x.run
  trc : y.trc = x.trc

/-- `y` is `x` but for endpoint and outputs. -/
structure Half.Sends (x y : Half) : Prop extends Half.Reports x y where
  regs : y.regs = x.regs

theorem Half.Keeps.refl (x : Half) : x.Keeps x := by constructor <;> rfl
theorem Half.Reports.refl (x : Half) : x.Reports x := ⟨.refl x, rfl, rfl, rfl⟩
theorem Half.Sends.refl (x : Half) : x.Sends x := ⟨.refl x, rfl⟩

theorem Half.Keeps.trans {x y z : Half} (a : x.Keeps y) (b : y.Keeps z) : x.Keeps z where
  self := b.self.trans a.self
  latch := b.latch.trans a.latch
  mem := b.mem.trans a.mem
  ar := b.ar.trans a.ar
  bundle := b.bundle.trans a.bundle
  seqCopy := b.seqCopy.trans a.seqCopy
  mt := b.mt.trans a.mt
  txe := b.txe.trans a.txe
  eng := b.eng.trans a.eng
  asr := b.asr.trans a.asr
  ptm := b.ptm.trans a.ptm
  fab := b.fab.trans a.fab
  pins := b.pins.trans a.pins
  sys := b.sys.trans a.sys
  sec := b.sec.trans a.sec
  ctl := b.ctl.trans a.ctl
  free := b.free.trans a.free

theorem Half.Reports.trans {x y z : Half} (a : x.Reports y) (b : y.Reports z) : x.Reports z :=
  ⟨a.toKeeps.trans b.toKeeps, b.seq.trans a.seq, b.run.trans a.run, b.trc.trans a.trc⟩

/-! ## Registers -/

theorem setReg_reports (x : Half) (o : Nat) (v : Word) : x.Reports (x.setReg o v) := by
  constructor <;> first | rfl | exact ⟨rfl, rfl, rfl, rfl, rfl, rfl, rfl, rfl, rfl, rfl, rfl, rfl, rfl, rfl, rfl, rfl, rfl⟩

theorem setRFld_reports (x : Half) (o lo n v : Nat) : x.Reports (x.setRFld o lo n v) := setReg_reports ..
theorem setRBit_reports (x : Half) (o i : Nat) (b : Bool) : x.Reports (x.setRBit o i b) := setReg_reports ..
theorem countFld_reports (x : Half) (o lo n k : Nat) : x.Reports (x.countFld o lo n k) := setReg_reports ..
theorem setReg64_reports (x : Half) (lo hi v : Nat) : x.Reports (x.setReg64 lo hi v) :=
  (setReg_reports ..).trans (setReg_reports ..)
theorem setPendFlag_reports (x : Half) (n : Nat) (b : Bool) : x.Reports (x.setPendFlag n b) := setReg_reports ..

/-! ## Messages (R478, R479, R556) -/

theorem msixNow_sends (x : Half) (v : Nat) : x.Sends (x.msixNow v) := by
  unfold Half.msixNow
  split
  · split
    · exact ⟨⟨⟨rfl, rfl, rfl, rfl, rfl, rfl, rfl, rfl, rfl, rfl, rfl, rfl, rfl, rfl, rfl, rfl, rfl⟩, rfl, rfl, rfl⟩, rfl⟩
    · exact ⟨⟨⟨rfl, rfl, rfl, rfl, rfl, rfl, rfl, rfl, rfl, rfl, rfl, rfl, rfl, rfl, rfl, rfl, rfl⟩, rfl, rfl, rfl⟩, rfl⟩
  · exact .refl x

theorem msix_sends (x : Half) (v : Nat) : x.Sends (x.msix v) := by
  unfold Half.msix
  split
  · exact .refl x
  · split
    · exact ⟨⟨⟨rfl, rfl, rfl, rfl, rfl, rfl, rfl, rfl, rfl, rfl, rfl, rfl, rfl, rfl, rfl, rfl, rfl⟩, rfl, rfl, rfl⟩, rfl⟩
    · exact msixNow_sends x v

theorem irq_sends (x : Half) (r : Nat) : x.Sends (x.irq r) := by
  unfold Half.irq
  split
  · exact msix_sends ..
  · exact .refl x

theorem engIrq_sends (x : Half) (k : EngKind) (e : Nat) : x.Sends (x.engIrq k e) := by
  unfold Half.engIrq
  split
  · exact msix_sends ..
  · exact .refl x

/-! ## Reports of blocks -/

theorem engDone_reports (x : Half) (k : EngKind) (e c : Nat) : x.Reports (x.engDone k e c) := by
  have h := (setRFld_reports x (statReg k e) 16 8 c).trans (setRBit_reports _ (statReg k e) 0 true)
  unfold Half.engDone
  split
  · exact h
  · exact h.trans (engIrq_sends ..).toReports

theorem asrEvt_reports (x : Half) (i : Nat) : x.Reports (x.asrEvt i) := by
  unfold Half.asrEvt
  split
  · exact .refl x
  · exact (setRBit_reports ..).trans (irq_sends ..).toReports

theorem afbEvt_reports (x : Half) (i : Nat) : x.Reports (x.afbEvt i) := by
  unfold Half.afbEvt
  split
  · exact .refl x
  · exact (setRBit_reports ..).trans (irq_sends ..).toReports

theorem ptmEvent_reports (x : Half) (i : Nat) : x.Reports (x.ptmEvent i) := by
  unfold Half.ptmEvent
  split
  · exact .refl x
  · exact (setRBit_reports ..).trans (irq_sends ..).toReports

theorem pwrEvent_reports (x : Half) (r i : Nat) : x.Reports (x.pwrEvent r i) := by
  unfold Half.pwrEvent
  split
  · exact .refl x
  · exact (setRBit_reports ..).trans (irq_sends ..).toReports

theorem txeErr_reports (x : Half) (i : Nat) : x.Reports (x.txeErr i) := by
  unfold Half.txeErr
  dsimp only
  split
  · exact (setRBit_reports ..).trans (msix_sends ..).toReports
  · exact setRBit_reports ..

theorem loadDone_reports (x : Half) (c : Nat) : x.Reports (x.loadDone c) :=
  (setRFld_reports ..).trans (afbEvt_reports ..)

theorem memUncorr_reports (x : Half) (a : Nat) : x.Reports (x.memUncorr a) := by
  unfold Half.memUncorr
  split
  · exact .refl x
  · exact ((setRBit_reports ..).trans (setRFld_reports ..)).trans (setReg64_reports ..)

theorem noteStop_reports (x : Half) (c : Nat) (e : Option Nat) (t : DWord) : x.Reports (x.noteStop c e t) := by
  unfold Half.noteStop
  dsimp only
  split
  · exact (setReg_reports ..).trans (setReg64_reports ..)
  · exact setReg_reports ..

/-! ## Trace packets, events and the sequencer's waits (R196 to R198, R529 to R539) -/

theorem fifoPut_keeps (x : Half) (k : Nat) (mk : Nat → List (List Word)) : x.Keeps (x.fifoPut k mk) := by
  unfold Half.fifoPut
  dsimp only
  split <;> split
  · exact ⟨rfl, rfl, rfl, rfl, rfl, rfl, rfl, rfl, rfl, rfl, rfl, rfl, rfl, rfl, rfl, rfl, rfl⟩
  · refine .trans ?_ (irq_sends ..).toKeeps
    exact ⟨rfl, rfl, rfl, rfl, rfl, rfl, rfl, rfl, rfl, rfl, rfl, rfl, rfl, rfl, rfl, rfl, rfl⟩
  · exact ⟨rfl, rfl, rfl, rfl, rfl, rfl, rfl, rfl, rfl, rfl, rfl, rfl, rfl, rfl, rfl, rfl, rfl⟩
  · refine .trans ?_ (irq_sends ..).toKeeps
    exact ⟨rfl, rfl, rfl, rfl, rfl, rfl, rfl, rfl, rfl, rfl, rfl, rfl, rfl, rfl, rfl, rfl, rfl⟩

theorem trace_keeps (x : Half) (k typ : Nat) (p : List Word) : x.Keeps (x.trace k typ p) := by
  unfold Half.trace
  split
  · exact fifoPut_keeps ..
  · exact .refl x

theorem traceEvt_keeps (x : Half) (e : Nat) : x.Keeps (x.traceEvt e) := by
  unfold Half.traceEvt
  split
  · exact ⟨rfl, rfl, rfl, rfl, rfl, rfl, rfl, rfl, rfl, rfl, rfl, rfl, rfl, rfl, rfl, rfl, rfl⟩
  · exact .refl x

theorem traceCtl_keeps (x : Half) (op : Nat) (v : DWord) : x.Keeps (x.traceCtl op v) := by
  unfold Half.traceCtl
  split <;> exact trace_keeps ..

theorem request_keeps (x : Half) (c : Nat) (e : Option Nat) (b : Bool) : x.Keeps (x.request c e b) := by
  unfold Half.request
  split
  · exact .refl x
  · split <;> exact ⟨rfl, rfl, rfl, rfl, rfl, rfl, rfl, rfl, rfl, rfl, rfl, rfl, rfl, rfl, rfl, rfl, rfl⟩

theorem setW_keeps (x : Half) (i : BitVec 5) (v : DWord) : x.Keeps (x.setW i v) := by
  unfold Half.setW
  split
  · exact .refl x
  · exact ⟨rfl, rfl, rfl, rfl, rfl, rfl, rfl, rfl, rfl, rfl, rfl, rfl, rfl, rfl, rfl, rfl, rfl⟩

theorem seqFault_keeps (x : Half) (c : Nat) : x.Keeps (x.seqFault c) := by
  unfold Half.seqFault
  refine .trans (.trans ?_ (request_keeps ..)) (trace_keeps ..)
  exact ⟨rfl, rfl, rfl, rfl, rfl, rfl, rfl, rfl, rfl, rfl, rfl, rfl, rfl, rfl, rfl, rfl, rfl⟩

theorem fetched_keeps (x : Half) : x.Keeps x.fetched := by
  unfold Half.fetched
  repeat' split
  all_goals first | exact .refl x | exact seqFault_keeps ..

theorem endWait_keeps (x : Half) (wd : BitVec 5) (v : DWord) : x.Keeps (x.endWait wd v) := by
  unfold Half.endWait
  refine .trans ((traceCtl_keeps x x.seq.wait.op v).trans (setW_keeps (x.traceCtl x.seq.wait.op v) wd v)) (.trans ?_ (fetched_keeps _))
  exact ⟨rfl, rfl, rfl, rfl, rfl, rfl, rfl, rfl, rfl, rfl, rfl, rfl, rfl, rfl, rfl, rfl, rfl⟩

theorem waiteCheck_keeps (x : Half) : x.Keeps x.waiteCheck := by
  unfold Half.waiteCheck
  split
  · split
    · exact (setPendFlag_reports ..).toKeeps.trans (endWait_keeps ..)
    · exact .refl x
  · exact .refl x

/-- An event (R198): its flag, the request of its action, WAITE, the trace machine. -/
theorem event_keeps (x : Half) (n : Nat) : x.Keeps (x.event n) := by
  unfold Half.event
  refine .trans (.trans ?_ (waiteCheck_keeps _)) (traceEvt_keeps ..)
  split
  · exact (setPendFlag_reports ..).toKeeps.trans (request_keeps ..)
  · exact (setPendFlag_reports ..).toKeeps.trans (request_keeps ..)
  · exact (setPendFlag_reports ..).toKeeps

theorem bundleEvt_keeps (x : Half) (b i : Nat) : x.Keeps (x.bundleEvt b i) := by
  have h : x.Keeps ((x.setRBit (Reg.lnkTmBevt b) i true).event 278) := (setRBit_reports ..).toKeeps.trans (event_keeps ..)
  unfold Half.bundleEvt
  dsimp only
  split
  · exact h.trans (msix_sends ..).toKeeps
  · exact h

theorem abortDone_keeps (x : Half) (k : EngKind) (e c : Nat) (q : Bool) : x.Keeps (x.abortDone k e c q) := by
  have h := ((setRFld_reports x (statReg k e) 8 8 c).trans (setRBit_reports _ (statReg k e) 1 true)).toKeeps
  have h2 := h.trans (engIrq_sends _ k e).toKeeps
  have h3 : x.Keeps (if x.rbit (statReg k e) 1 then (x.setRFld (statReg k e) 8 8 c).setRBit (statReg k e) 1 true
      else ((x.setRFld (statReg k e) 8 8 c).setRBit (statReg k e) 1 true).engIrq k e) := by
    split
    · exact h
    · exact h2
  unfold Half.abortDone
  dsimp only
  split
  · split
    · exact h3.trans (endWait_keeps ..)
    · exact h3
  · exact h3

theorem halfFault_keeps (x : Half) : x.Keeps x.halfFault :=
  ⟨rfl, rfl, rfl, rfl, rfl, rfl, rfl, rfl, rfl, rfl, rfl, rfl, rfl, rfl, rfl, rfl, rfl⟩

/-- A value that the specification leaves open takes one number of the half's counter and changes nothing else. -/
theorem fresh_half (x : Half) (w : Nat) : (x.fresh w).2 = { x with free := x.free + 1 } := rfl

end Sys2Proof.Machine
end

