-- ==== Sys2Proof/Tests/Slice0.lean ====
section
/-!
SUPPORT. Tests/Slice0.lean: small tests of the model, and for every statement of Obligations.lean a state and operands that meet
the hypotheses of each of its clauses.
-/

namespace Sys2Proof.Tests

set_option Elab.async false

open Sys2Proof.Machine Sys2Proof.Claims

/-! ## Small states -/

/-- A half whose image is for SPLIT. -/
def split (x : Half) : Half := { x with run := { x.run with mode := .split } }

/-- The module after reset, both halves in SPLIT, half 0 changed. -/
def on (f : Half → Half) : State := { h0 := f (split State.reset.h0), h1 := split State.reset.h1, pending := [] }

/-- A half in a run state, with an image loaded. -/
def inState (r : RunState) (x : Half) : Half := { x with run := { x.run with state := r, loaded := some .split } }

/-- The sequencer about to execute a word. -/
def atWord (w : Word) (x : Half) : Half :=
  { x with mem := wrBytes x.mem (spAddr 0) (leBytes 4 w.toNat), seq := { x.seq with exec := .exec, progWords := 1 } }

/-- The sequencer about to execute an instruction. -/
def atInstr (i : Instr) : Half → Half := atWord ((seqEncode i).getD 0xFFFFFFCC#32)

/-- A bundle changed. -/
def bundled (f : Bundle → Bundle) (x : Half) : Half := x.setBun 0 (f Bundle.zero)

/-- A step of half 0 at position 5. -/
def stepAt : StepAt := ⟨.h0, false, 5#12, 100#12, 100⟩

/-- A word of BP 0 with the constants 0 for operands. -/
def bpWord : BpWord := ⟨0#16, 1#8, 0#13, 0#13, 0#13, 0#13⟩

/-- The rate of the bundles at PLL B of quad 0, locked. -/
def pllOn (x : Half) : Half := x.setReg (Reg.lnkQuad 0) 0x80000090#32

/-! ## Witnesses -/

theorem test_witness_MemoryWriteStoresItsBytes :
    regionOf (0x1000000000#40).toNat 3 = some .hbm ∧ AtRest (on id).h0 ∧ NoErrors (on id).h0 ∧ Calm (on id) ∧
    (on id).h0.rfld Reg.stwBoot 26 2 = 0 ∧
    hbmMeets (0x1000000000#40).toNat 3 ((on id).h0.capRanges 4 ++ (on id).h0.plyRanges 4) = false := by decide

theorem test_witness_MemoryReadAnswersTheBytes :
    regionOf (0x1BFFFFFFFF#40).toNat 1 = some .hbm ∧ AtRest (on id).h0 ∧ NoErrors (on id).h0 ∧ Calm (on id) ∧
    (on id).h0.rfld Reg.stwBoot 26 2 = 0 := by decide

theorem test_witness_AliasWritesSetAndClearBits :
    let s := on fun x => x.setRFld (Reg.memWinsel 2) 7 4 7
    0x7FFFFC % 4 = 0 ∧ 0x7FFFFC < 0x800000 ∧ AtRest s.h0 ∧ NoErrors s.h0 ∧ Calm s ∧ s.h0.rfld (Reg.memWinsel 2) 7 4 < 8 := by
  decide

theorem test_witness_RegistersAreAlignedWords :
    (on id).h0.inRun = false ∧ regionOf (0x90600005#40).toNat 1 = some .ctl ∧ (Master.stw ≠ .host ∧ Master.stw ≠ .afb) ∧
    Served (on fun x => x.setRBit Reg.pciCtrl 0 true) .h0 .host := by decide

theorem test_witness_EvalTrigAssertWriteTheResult : Plain (on id) stepAt bpWord := by decide

theorem test_witness_EvalcWritesOnlyWhenItsConditionHolds : Plain (on id) stepAt bpWord ∧ val (on id) stepAt bpWord 0#13 = false := by decide

theorem test_witness_NopWritesNothing : NoErrors (on id).h0 := by decide

theorem test_witness_SwitchInstructionMovesABit :
    let s := on fun x => { x with mem := wrBytes x.mem (moveAddr 0 5 0) [1#8, 0xF8#8, 0xDF#8] }
    let mv := decodeMove 0xDFF801
    (s.h0.moves 0 5 = [(0, mv, none)] ∧ mv.v = true ∧ mv.dst < 0x400) ∧ srcReserved 0 mv.src = false ∧
    s.h0.ar.sent = [] ∧ s.h1.ar.sent = [] := by decide

theorem test_witness_BridgeUpFollowsTrainingAndLoss :
    let s := (on id).both fun x => x.setRFld Reg.stwBoot 16 4 7
    let t := (on id).both fun x => x.setRBit Reg.xchBrgStatus 2 true
    (7 ≤ s.h0.rfld Reg.stwBoot 16 4 ∧ 7 ≤ s.h1.rfld Reg.stwBoot 16 4 ∧ s.h0.rbit Reg.xchBrgStatus 2 = false ∧
      s.h1.rbit Reg.xchBrgStatus 2 = false) ∧
    t.h0.rbit Reg.xchBrgStatus 2 = true ∧ t.h1.rbit Reg.xchBrgStatus 2 = true := by decide

theorem test_witness_FaultStatusWritesClear : Served (on id) .h0 .stw ∧ wbit 5#32 0 = true ∧ wbit 5#32 2 = true ∧ wbit 0#32 0 = false := by
  decide

theorem test_witness_UnreadableWordsAndEntriesFault :
    let s := on fun x => { x with ar := { x.ar with ecc := [(bpWordAddr 0 5, some true)] } }
    let t := on fun x => { x with ar := { x.ar with ecc := [(palAddr 0 0 1, some true)] } }
    s.h0.unserved 0 = false ∧ s.h0.eccAt (bpWordAddr 0 5) = some true ∧
    (t.h0.eccAt (bpWordAddr 0 5) = none ∧ firstReserved bpWord = none ∧ t.h0.eccAt (palAddr 0 0 1) = some true) ∧
    val t stepAt bpWord 0#13 = false := by decide

/-- A bridge word on its way to tile 63 whose step is the last of a sub-schedule. -/
theorem test_witness_BridgeReceiveActsOnTheCheckBits :
    let s := on fun x => { x with ar := { x.ar with bridge := [⟨0, 4095, 63, 0, true⟩] } }
    s.h0.rbit Reg.xchFaultStatus 0 = false ∧
    s.h0.ar.bridge.find? (fun w => w.tile == (63#6).toNat) = some ⟨0, 4095, 63, 0, true⟩ ∧ 4095 < 4096 := by decide

theorem test_witness_BundleTrainingPassesItsStates :
    let s := fun f => on (fun x => bundled f (pllOn x))
    (Served (on id) .h0 .stw ∧ (10#4).toNat < 12 ∧ (10#4).toNat % 2 = 0 ∧ (on id).h0.rbit (Reg.lnkTmBcfg 0) 0 = false) ∧
    (on fun x => x.setRBit (Reg.lnkTmBcfg 0) 0 true).h0.rbit (Reg.lnkTmBcfg 0) 0 = true ∧
    (s (fun u => { u with st := .lock })).h0.bundlePll 0 (((s (fun u => { u with st := .lock })).h0.bun 0)) = true ∧
    (let u := ((s (fun u => { u with st := .align, good := 16 })).h0.bun 0); u.st = .align ∧ 16 ≤ u.good) ∧
    (let x := (s (fun u => { u with st := .measure, trips := 64, peer := 1#32 })).h0
     let u := x.bun 0
     u.st = .measure ∧ 64 ≤ u.trips ∧ x.proposes u = true ∧
      (frozenF (fld u.cfg 22 10) (frozenM u.dOwn u.dPeer (u.span 0))).isSome = true) := by decide

theorem test_witness_BundleLossLeadsToDownAndBack :
    let s := fun (c : BundleState) (w : Word) => (on (bundled fun u => { u with st := c, cfg := w })).h0.bun 0
    (s .align 0#32).training = true ∧ (s .active 0#32).live = true ∧ (s .down 0x7000#32).st = .down ∧
    wbit (s .down 0x7000#32).cfg 13 = true := by decide

/-- A TRAIN record of zeros with its CRC. -/
def record : BitVec 432 := BitVec.ofNat 432 (0x9F5B8D62 * 2 ^ 400)

/-- Slices with a header, as a bundle fresh from reset sends them. -/
def wire (hdr : BitVec 2) (ps : List Nat) : WireBlock :=
  ⟨((Bundle.zero.putSlices 0 ((ps.zipIdx).map (fun p => (p.2, p.1)))).1).map (fun p => (hdr, p.2))⟩

/-- A block of the link, and one whose CTL has been hit since its CRC was formed. -/
def goodWire (ctl body : Nat) : WireBlock := wire 1#2 (slicesOf (blockBits ctl body))
def badWire (ctl body : Nat) : WireBlock := wire 1#2 (slicesOf (blockBits ctl body ^^^ 1))

set_option maxRecDepth 20000 in
theorem test_witness_TrainBlocksAreCheckedAndTaken :
    let u := (on (bundled fun u => { u with st := .align })).h0.bun 0
    let w := wire 2#2 (trainSlices 7 record.toNat)
    u.training = true ∧ u.st ≠ .lock ∧ u.st ≠ .measure ∧ (LanesHold u 0 w ∧ LanesHold u 0 (badWire 0 0)) ∧
    u.readTrain 0 w = (true, record) ∧ (u.readTrain 0 (badWire 0 0)).1 = false := by decide +kernel

theorem test_witness_PacketsAreTakenInOrderAndAcknowledged :
    let u := (on (bundled fun u => { u with st := .active, pseqRx := 65535 })).h0.bun 0
    u.live = true ∧ u.resync = false ∧ (0xFFFF#16).toNat = u.pseqRx ∧ (0#16).toNat ≠ u.pseqRx := by decide

set_option maxRecDepth 20000 in
theorem test_witness_BlocksCarryWindowsAndBadOnesStopThem :
    let u := (on (bundled fun u => { u with st := .active })).h0.bun 0
    u.st = .active ∧ u.live = true ∧ 32 % u.span 0 = 0 ∧ (LanesHold u 0 (badWire 0x2000 5) ∧ (u.read 0 (badWire 0x2000 5)).bad = true) ∧
    LanesHold u 0 (goodWire 0x2000 5) ∧ u.read 0 (goodWire 0x2000 5) = ⟨0x2000#16, 5#512, false⟩ ∧
    (u.read 0 (goodWire 0x2000 5)).kind = 2 ∧ u.seqBroken (u.read 0 (goodWire 0x2000 5)) = false := by decide +kernel

theorem test_witness_TheBlockSentIsTheBlockRead :
    (∀ l, sget Bundle.zero.scrTx l 0 = sget Bundle.zero.scrRx l 0) ∧ ∀ j, Bundle.zero.laneOf 1 j = Bundle.zero.laneOf 1 j :=
  ⟨fun _ => rfl, fun _ => rfl⟩

set_option maxRecDepth 20000 in
theorem test_witness_LinkedStartsAndHalts :
    let s := on (bundled fun u => { u with st := .active })
    let a := on fun x => { bundled (fun u => { u with st := .active }) x with run := { x.run with linkStart := some 5 } }
    let w := fun kind => goodWire (kind * 4096) 5
    let u := s.h0.bun 0
    let t := on fun x => { x with run := { x.run with linkStart := some 1024, linkWait := some .ready, linked := true } }
    let r := on fun x => { x with run := { x.run with
      state := .running, linked := true, linkCfg := 4#32, stall := some ⟨⟨0, false⟩, 0, none, false, false, 0, 0, 0, 0, false⟩ } }
    (u.st = .active ∧ lscDist 5 s.h0.lscNat = 5 ∧ u.lastCtl = none ∧ wbit (s.groupCfg .h0) 1 = false ∧ s.govern .h0 = .h0 ∧
      LanesHold u 0 (w 4) ∧ u.read 0 (w 4) = ⟨0x4000#16, 5#512, false⟩ ∧ natField 5 48 32 = (s.h0.reg Reg.lnkTmDigest).toNat ∧
      natField 5 80 10 = u.frozen) ∧ (∀ c ∈ List.range 12, bmaskHas (s.groupCfg .h0) 0 c = false ∧ bmaskHas (s.groupCfg .h0) 1 c = false) ∧
    (a.h0.run.linkStart = some 5 ∧ a.h0.run.aborted ≠ some 5 ∧ LanesHold u 0 (w 5) ∧ u.read 0 (w 5) = ⟨0x5000#16, 5#512, false⟩) ∧
    (1024 < 2 ^ 48 ∧ t.h0.run.linkStart = some 1024 ∧ t.h0.run.linkWait = some .ready ∧ lscDist 1024 t.h0.lscNat = 1024) ∧
    (Calm r ∧ r.h0.run.linked = true ∧ r.h0.run.state = .running ∧ r.h0.run.stall.isSome = true ∧ none ∈ r.h0.peerSamples) := by
  decide +kernel


theorem test_witness_DecodingUndoesEncoding : WellFormed (.evact .h0 0x7FF#16) = true ∧ (seqEncode (.evact .h0 0x7FF#16)).isSome = true := by decide

theorem test_witness_RegisterArithmeticWritesItsResult : ∀ i ∈ ([.add .h0 31#5 1#5 2#5, .sub .h0 0#5 1#5 2#5, .and .h0 1#5 1#5 1#5,
    .or .h0 1#5 2#5 3#5, .xor .h0 1#5 2#5 3#5, .shl .h0 1#5 2#5 3#5, .shr .h0 1#5 2#5 3#5, .sra .h0 1#5 2#5 3#5,
    .clt .h0 1#5 2#5 3#5, .cltu .h0 1#5 2#5 3#5, .mul .h0 1#5 2#5 3#5] : List Instr), (on (atInstr i)).canExec .h0 i = true := by decide

theorem test_witness_ImmediateArithmeticWritesItsResult : ∀ i ∈ ([.addi .h0 31#5 1#5 0xFFFF#16, .andi .h0 1#5 2#5 0xFFFF#16,
    .ori .h0 0#5 2#5 1#16, .xori .h0 1#5 2#5 1#16, .shli .h0 1#5 2#5 63#16, .shri .h0 1#5 2#5 63#16, .uppi .h0 1#5 0xFFFF#16] : List Instr),
    (on (atInstr i)).canExec .h0 i = true := by decide

theorem test_witness_TimeSourcesNopAndHalt : (∀ i ∈ ([.rdt .h0 1#5 0#16, .rdt .h0 1#5 1#16, .rdt .h0 1#5 2#16, .rdt .h0 1#5 3#16,
    .rdt .h0 1#5 4#16, .rdt .h0 1#5 5#16, .rdt .h0 1#5 6#16, .rdt .h0 1#5 7#16, .rdt .h0 1#5 15#16, .nop .h0, .halt .h0] : List Instr),
    (on (atInstr i)).canExec .h0 i = true) ∧ NoInsTrace (on id) .h0 := by decide

theorem test_witness_LoadsAndStoresUseScratchpadZero :
    let w := fun (v : Nat) (x : Half) => x.setW 2#5 (BitVec.ofNat 64 v)
    let ld := Instr.ld .h0 1#5 2#5 0#16
    let st := Instr.st .h0 1#5 2#5 0#16
    let s := on fun x => atInstr ld (w 0xFFFF8 x)
    let t := on fun x => atInstr st (w 0x10000 x)
    let off := fun (s : State) => ((s.half .h0).w 2#5 + (0#16).signExtend 64).toNat % 2 ^ 20
    (NoErrors s.h0 ∧ Calm s ∧ NoInsTrace s .h0 ∧ s.canExec .h0 ld = true ∧ off s % 8 = 0) ∧
    (on fun x => atInstr ld (w 1 x)).canExec .h0 ld = true ∧ off (on fun x => atInstr ld (w 1 x)) % 8 ≠ 0 ∧
    (t.canExec .h0 st = true ∧ off t % 8 = 0 ∧ 0x10000 ≤ off t) ∧
    off (on fun x => atInstr st (w 0xFFF8 x)) % 8 = 0 ∧ off (on fun x => atInstr st (w 0xFFF8 x)) < 0x10000 := by decide

theorem test_witness_RegisterAccessesOfTheSequencer :
    let rdc := Instr.rdc .h0 1#5 2#5 0#16
    let wrc := Instr.wrc .h0 1#5 2#5 0#16
    let at_ := fun (i : Instr) (v : Nat) => on fun x => atInstr i (x.setW 2#5 (BitVec.ofNat 64 v))
    let addr := fun (s : State) => ((s.half .h0).w 2#5 + (0#16).signExtend 64).toNat % 2 ^ 40
    ((at_ rdc 0x90500034).canExec .h0 rdc = true ∧ addr (at_ rdc 0x90500034) = 0x90500034) ∧
    (0x1C00000000 ≤ addr (at_ rdc 0x1C00000000)) ∧
    ((at_ wrc 0x90600004).canExec .h0 wrc = true ∧ addr (at_ wrc 0x90600004) = 0x90600004 ∧ (at_ wrc 0x90600004).h0.inRun = false) ∧
    (0x1C00000000 ≤ addr (at_ wrc 0x1C00000000)) ∧ NoInsTrace (at_ wrc 0x1C00000000) .h0 := by decide

theorem test_witness_BranchesMoveThePc :
    let i := fun (f : HalfId → BitVec 5 → BitVec 5 → BitVec 16 → Instr) => f .h0 1#5 2#5 0xFFFF#16
    ∀ f ∈ [Instr.beq, .bne, .blt, .bge, .bltu, .bgeu], (on (atInstr (i f))).canExec .h0 (i f) = true := by decide

theorem test_witness_JumpsMoveThePc : ∀ i ∈ ([.jmp .h0 0x1FFFFF#21, .call .h0 31#5 1#21, .jmpr .h0 1#5] : List Instr),
    (on (atInstr i)).canExec .h0 i = true := by decide

theorem test_witness_InstructionsNotAtThePcDoNothing : seqDecode .h0 0#32 = some (.nop .h0) ∧ (on id).canExec .h0 (.nop .h0) = false := by decide

/-- The module about to execute an instruction, half 0 changed. -/
def about (i : Instr) (f : Half → Half) : State := on fun x => atInstr i (f x)

/-- The half waits at a stall point for the dispatch of domain 0. -/
def stalled (x : Half) : Half := { x with run := { x.run with stall := some ⟨⟨0, false⟩, 3, none, false, false, 0, 0, 0, 0, false⟩ } }

theorem test_witness_GoRuncRuntReleaseAHeldRun :
    let s := fun i f => about i (fun x => inState .held (f x))
    let runc := Instr.runc .h0 1#5 2#5
    let runt := Instr.runt .h0 1#5 2#5
    let go := Instr.go .h0 1#5
    let due := fun (x : Half) => { x with run := { x.run with decided := some ⟨0#64, [], []⟩ } }
    (Calm (s go id) ∧ (s go id).paired .h0 = false ∧ (s go id).canExec .h0 go = true ∧ (s go id).h0.run.state = .held) ∧
    ((about go id).canExec .h0 go = true ∧ (about go id).h0.run.state = .unloaded) ∧
    ((s runc id).canExec .h0 runc = true ∧ (s runc id).h0.w 2#5 = 0#64) ∧
    (let t := s runc (fun x => stalled (x.setW 2#5 1#64)); t.canExec .h0 runc = true ∧ t.h0.w 2#5 ≠ 0#64 ∧
      t.h0.run.state = .held ∧ t.h0.run.stall.isSome = true) ∧
    ((s runt due).canExec .h0 runt = true ∧ (s runt due).ticksUpTo .h0 ((s runt due).h0.w 2#5) = true) ∧
    (s runt id).ticksUpTo .h0 ((s runt id).h0.w 2#5) = false := by decide +kernel

theorem test_witness_HoldAndStopAskTheRun :
    let hold := Instr.hold .h0 1#5
    let stop := Instr.stop .h0 1#5
    ∀ st ∈ [RunState.running, .ready, .held], (about hold (inState st)).canExec .h0 hold = true ∧
      (about stop (inState st)).canExec .h0 stop = true ∧ (about stop (inState st)).h0.run.state = st ∧
      Calm (about stop (inState st)) ∧ (about stop (inState st)).paired .h0 = false := by decide

theorem test_witness_DomenSwitchesADomainInHeld :
    let off := Instr.domen .h0 1#5 127#16
    let far := Instr.domen .h0 1#5 128#16
    let s := about off (fun x => inState .held (x.setReg (Reg.edgDesc 127 3) 0x00010000#32))
    (s.canExec .h0 off = true ∧ Calm s ∧ s.h0.run.mode = .split ∧ s.h0.run.state = .held ∧ (s.h0.desc 127).en = true ∧
      (127#16).getLsbD 8 = false) ∧
    ((about far (inState .held)).canExec .h0 far = true ∧ 128 ≤ (128#16).toNat % 256) ∧
    ((about off id).canExec .h0 off = true ∧ (about off id).h0.run.state ≠ .held) ∧
    ((about off (inState .held)).h0.desc 127).en = (127#16).getLsbD 8 := by decide

theorem test_witness_EventInstructionsActOnTheirBits : ∀ i ∈ ([.even .h0 280#16, .evdis .h0 280#16, .evclr .h0 281#16, .evact .h0 1304#16] : List Instr),
    (about i id).canExec .h0 i = true := by decide

theorem test_witness_WaiteTakesTheLowestEvent :
    let i := Instr.waite .h0 1#5 0#5
    let g := Instr.sig .h0 1#5 255#16
    let s := about i (fun x => (x.setReg (Reg.seqEvtPend 8) 0x01000000#32).setReg (Reg.seqEvtEn 8) 0x01000000#32)
    let t := on fun x => { x with seq := { x.seq with exec := .wait, wait := .waite 1#5 (some 9) } }
    (s.canExec .h0 i = true ∧ s.h0.pendFlag 280 = true ∧ s.h0.evtEn 280 = true ∧
      ∀ k, k < 280 → (s.h0.pendFlag k && s.h0.evtEn k) = false) ∧
    ((about i id).canExec .h0 i = true ∧ ∀ k, k < 281 → ((about i id).h0.pendFlag k && (about i id).h0.evtEn k) = false) ∧
    (t.h0.seq.wait = .waite 1#5 (some 9) ∧ t.seqRuns .h0 = true) ∧ (about g id).canExec .h0 g = true := by decide +kernel

/-- A generation of this number. -/
def snapOf (n : Nat) : Snap := (split State.reset.h0).snap n

/-- Assured operation active with this newest generation. -/
def active (g : Snap) (x : Half) : Half := { x with asr := { x.asr with st := .active, active := true, gens := [g] } }

/-- The module in PAIRED, both halves alike. -/
def paired (f : Half → Half) : State :=
  { h0 := f { State.reset.h0 with run := { State.reset.h0.run with mode := .paired, loaded := some .paired } }
    h1 := f { State.reset.h1 with run := { State.reset.h1.run with mode := .paired, loaded := some .paired } }, pending := [] }

theorem test_witness_EngineCheckpointAndFallowInstructions :
    let arm := Instr.arm .h0 1#5 2#5 3#16
    let abrt := Instr.abrt .h0 1#5 3#16
    let ckpt := Instr.ckpt .h0 1#5 0#16
    let res := Instr.restore .h0 1#5 2#5
    let fal := Instr.fallow .h0 1#5
    let gen := fun (x : Half) => { x with asr := { x.asr with gens := [snapOf 0] } }
    let end_ := Instr.abrt .h0 1#5 0x13#16
    let eng := fun st => about end_ (fun x => x.setCap 3 { x.cap 3 with st := st })
    let wait := Instr.ckpt .h0 1#5 1#16
    let on_ := fun i => about i (active (snapOf 0))
    ((about arm id).canExec .h0 arm = true ∧ (3#16).toNat < 4 ∧ (about arm id).h0.eng.arming = []) ∧
    ((about abrt id).canExec .h0 abrt = true ∧ ((about abrt id).h0.trg 3).st.armed = false) ∧
    (engOf ((0x13#16).toNat % 256) = some (.capture, 3) ∧ ∀ st ∈ [EngState.pending, .idle, .active],
      (eng st).canExec .h0 end_ = true ∧ (eng st).h0.eng.arming = [] ∧ (eng st).h0.asr.active = false ∧ Calm (eng st) ∧
      NoErrors (eng st).h0 ∧ (eng st).paired .h0 = false ∧ (eng st).h0.engSt .capture 3 = st) ∧
    ((on_ ckpt).canExec .h0 ckpt = true ∧ (on_ wait).canExec .h0 wait = true ∧ (on_ ckpt).h0.asr.active = true ∧
      (on_ ckpt).h0.asr.phase = none ∧ (on_ ckpt).h0.run.linked = false ∧ Calm (on_ ckpt) ∧ NoErrors (on_ ckpt).h0 ∧
      (on_ ckpt).paired .h0 = false ∧ (0#16).getLsbD 0 = false ∧ (1#16).getLsbD 0 = true) ∧
    ((about ckpt id).canExec .h0 ckpt = true ∧ (about ckpt id).h0.asr.active = false) ∧
    ((about res (inState .ready)).canExec .h0 res = true ∧ (about res (inState .ready)).h0.run.state = .ready) ∧
    (let s := about res (inState .stopped); s.canExec .h0 res = true ∧
      s.h0.asr.gens.any (fun g => g.gen == (s.h0.w 2#5).toNat) = false) ∧
    (let s := about res (fun x => gen (inState .stopped x)); s.canExec .h0 res = true ∧
      s.h0.asr.gens.any (fun g => g.gen == (s.h0.w 2#5).toNat) = true) ∧
    ((about fal (inState .running)).canExec .h0 fal = true) ∧
    (about fal (inState .ready)).canExec .h0 fal = true ∧ (about fal (inState .ready)).mayFallow .h0 = true := by decide +kernel

theorem test_witness_TickMovesVirtualTimeToItsDecision :
    let s := on fun x => inState .running { x with run := { x.run with decided := some ⟨7#64, [], []⟩ } }
    (s.h0.run.mode = .split ∧ Calm s ∧ s.h0.canRun = true ∧ s.h0.run.stall = none ∧ s.h0.run.rest = [] ∧
      s.h0.run.decided = some ⟨7#64, [], []⟩) ∧ (on id).h0.canRun = false := by decide

theorem test_witness_IdleDecisionsCountEightSteps :
    let s := on fun x => inState .running { x with run := { x.run with idle := some 0 } }
    Calm s ∧ s.h0.run.mode = .split ∧ s.h0.run.idle = some 0 ∧ s.h0.canRun = true ∧ s.h0.run.stall = none ∧ s.h0.run.decided = none ∧
    s.h0.run.linked = false ∧ s.h0.run.holdCyc = none ∧ s.h0.run.holdVt = none := by decide

theorem test_witness_StallPointsCountAndHold :
    let q : HoldReq := ⟨8, some 273, 0#64, false, false⟩
    let s := on fun x => inState .running (stalled { x with ar := { x.ar with hbmRd := [⟨0, 0, hbmBase, 0#64, false, false⟩] } })
    let t := on fun x => inState .running (stalled { x with run := { x.run with cond := some q } })
    (Calm s ∧ s.h0.run.mode = .split ∧ s.h0.run.state = .running ∧ s.h0.run.linked = false ∧ s.h0.sys.fallow = none ∧
      s.h0.run.stall = some ⟨⟨0, false⟩, 3, none, false, false, 0, 0, 0, 0, false⟩ ∧ s.h0.run.cond = none ∧ s.h0.hbmStall = true) ∧
    t.h0.run.cond = some q ∧ q.stop = false ∧ t.h0.evtAct 273 = 0 ∧ t.h0.evtEn 273 = false := by decide

theorem test_witness_SequencerControlBitsAct :
    let q : HoldReq := ⟨8, some 273, 0#64, false, false⟩
    (Served (on id) .h0 .seq ∧ Calm (on id) ∧ (on id).paired .h0 = false) ∧ (on (inState .running)).h0.run.state = .running ∧
    (on (inState .held)).h0.run.state = .held ∧ (on id).h0.run.state ≠ .held ∧ (on id).h0.inRun = false ∧
    ((on id).h0.seq.exec ≠ .wait ∧ (on id).h0.seq.wait = .none ∧ (on id).h0.evtAct 272 = 0 ∧ NoTrace (on id).h0) ∧
    (about (.nop .h0) id).h0.seq.exec = .exec ∧
    (let s := on fun x => { atInstr (.nop .h0) x with seq := { x.seq with progWords := 1 } }
     s.h0.seq.exec = .halted ∧ s.seqRuns .h0 = true ∧ s.h0.seq.pc.toNat < s.h0.seq.progWords ∧
      opReserved (s.h0.seqWord.toNat % 64) = false) ∧ q.stop = false := by decide

theorem test_witness_SequencerFaultTimerAndDescriptors :
    let s := on fun x => { x.setReg Reg.seqFault 1#32 with seq := { x.seq with exec := .fault } }
    let t := on fun x => x.setReg Reg.seqTimer 5#32
    (Served s .h0 .stw ∧ wbit 1#32 0 = true ∧ s.h0.rbit Reg.seqFault 0 = true ∧ s.h0.seq.exec = .fault) ∧
    (Calm t ∧ t.h0.reg Reg.seqTimer ≠ 0#32 ∧ t.h0.seq.wait = .none ∧ t.h0.evtAct 280 = 0 ∧ NoTrace t.h0) ∧
    (on id).h0.inRun = false ∧ (on (inState .running)).h0.inRun = true := by decide

/-- A fabric whose logic is released. -/
def fabOn (x : Half) : Half := { x with fab := { x.fab with live := 1, outs := 1, ffs := 1 } }

theorem test_witness_ExternalEdgesQueueOrAreRefused :
    let s := on fun x => fabOn (x.setReg (Reg.edgDesc 127 3) 0x00030000#32)
    let t := on fun x => fabOn x
    let p := paired fun x => fabOn (x.setReg (Reg.edgDesc 63 3) 0x00030000#32)
    let full := on fun x => { x with run := { x.run with ext := List.replicate 61 ⟨⟨0, false⟩, 0, none⟩ } }
    (p.paired .h0 = true ∧ p.h0.run.mode = .paired ∧ p.h0.fab.live ≠ 0 ∧ p.h0.extDepth ≤ 60 ∧ p.h0.run.state ≠ .recovering ∧
      p.edgeRefused .h0 ⟨63, false⟩ = false ∧ p.h0.asr.active = false) ∧
    (60 < full.h0.extDepth ∧ full.h0.run.edges = none ∧ full.h0.edgeCycle = none) ∧
    (s.paired .h0 = false ∧ s.h0.edgeCycle.isSome = true ∧ s.h0.fab.live ≠ 0 ∧ s.h0.extDepth ≤ 60 ∧ s.h0.run.state ≠ .recovering ∧ s.edgeRefused .h0 ⟨127, false⟩ = false ∧ s.h0.asr.active = false) ∧
    (Calm t ∧ t.h0.fab.live ≠ 0 ∧ t.edgeRefused .h0 ⟨127, false⟩ = true ∧ t.h0.seq.wait = .none ∧ t.h0.evtAct 275 = 0 ∧ NoTrace t.h0) ∧
    (on id).h0.fab.live = 0 := by decide

theorem test_witness_DesignMemoryAccessesReadAndWrite :
    let w : BankOp := ⟨4, 6, 0, 0, bankAddr 0, 8, some 5⟩
    let r : BankOp := ⟨4, 6, 0, 0, bankAddr 0, 8, none⟩
    let hr : HbmRead := ⟨63, 3, hbmBase, 0#64, false, false⟩
    let hw : HbmWrite := ⟨63, 3, hbmBase, 8, 0, false⟩
    (NoErrors (on id).h0 ∧ w.write = some 5 ∧ r.write = none) ∧
    ({ hr with own := true }.own = true ∧ hr.own = false) ∧
    (hr.tile = (63#6).toNat ∧ hr.port = (3#2).toNat ∧ hr.back = false) ∧
    (on fun x => { x with ar := { x.ar with ecc := [(hbmBase, some true)], hbmRd := [hr] } }).h0.eccAt (hr.addr / 8 * 8) = some true ∧
    hw.tile = (63#6).toNat ∧ hw.port = (3#2).toNat ∧ hw.taken = false := by decide

theorem test_witness_PatrolAndErrorStatus :
    let a := 0x15FFFFFFF0
    let s := fun b => on fun x => { x with ar := { x.ar with ecc := [(0x15FFFFFFF0, some b)] } }
    (a % 8 = 0 ∧ hbmBase ≤ a ∧ a < 0x1600000000 - 8) ∧ (s false).h0.eccAt a = some false ∧
    ((s true).h0.eccAt a = some true ∧ (s true).h0.rbit Reg.memErrStatus 0 = false) ∧ (on id).h0.eccAt a = none ∧
    Served (on id) .h0 .stw ∧ wbit 3#32 0 = true ∧ wbit 3#32 1 = true := by decide

theorem test_witness_MemoryTestersRunAndReport :
    let busy := on fun x => { x.setReg Reg.memMarchStatus 1#32 with mt := { x.mt with ctrl := 0x15#32 } }
    let bgt := on fun x => x.setReg Reg.memBgtStatus 1#32
    let rep := on fun x => { x.setReg Reg.memMarchStatus 1#32 with mt := { x.mt with ctrl := 0x1D#32 } }
    let found : List MarchFault := [⟨0#10, 0#7, true, true, 0#42, 0⟩]
    (rep.h0.marchBusy = true ∧ wbit rep.h0.mt.ctrl 3 = true ∧ wbit rep.h0.mt.ctrl 2 = true ∧ found ≠ []) ∧
    (Served (on id) .h0 .stw ∧ (on id).h0.marchBusy = false ∧ (on id).h0.inRun = false ∧ fld 0x10#32 4 4 ≠ 0) ∧
    ((on (inState .running)).h0.inRun = true ∧ (on (inState .running)).h0.marchBusy = false) ∧
    (busy.h0.marchBusy = true ∧ wbit busy.h0.mt.ctrl 3 = false ∧ wbit busy.h0.mt.ctrl 2 = true) ∧
    (wbit 1#32 0 = true ∧ (on id).h0.rbit Reg.memBgtCtrl 0 = false) ∧
    bgt.h0.rbit Reg.memBgtStatus 0 = true ∧ bgt.h0.rbit Reg.memBgtStatus 1 = false ∧ bgt.h0.rbit Reg.memBgtStatus 2 = false ∧
    bgt.h0.mt.region % 16 ≠ 15 ∧ bgt.h0.mt.region < 294911 := by decide

theorem test_witness_DoorbellsMoveTheTailOrAreRefused :
    let s := on fun x => (x.setRBit Reg.txeCtrl 0 true).setReg (Reg.txeSqCfg 63) 0x80000002#32
    (Served s .h0 .stw ∧ s.h0.rbit Reg.txeCtrl 0 = true ∧ s.h0.rbit (Reg.txeSqCfg 63) 31 = true ∧
      s.h0.rfld (Reg.txeSqCfg 63) 0 16 ≤ fld 2#32 0 16) ∧ (on id).h0.rbit Reg.txeCtrl 0 = false := by decide

/-- A template of this handler and destination, with no timeout. -/
def tmplOf (handler dst : Nat) : Tmpl :=
  { handler := handler, prio := 0, standing := false, toNs := false, seqEvent := false, timeout := 0, src := 0, dst := dst
    cq := 0xFFFF, list := [], lens := [], count := 0 }

/-- A transaction of a template, made by no queue. -/
def txnOf (t : Tmpl) : Txn :=
  { t := t, maker := none, ctag := 0#32, born := 0, h := none, hq := [], d := [], c := false, k := false, dep := none, ready := false,
    running := false, commit := none, age := 0, expiring := false, sent := 0, msgs := 0, wrote := 0, cut := false, oseq1 := 0, head := 0,
    kept := [], deliv := [], outcome := none, pseq := none, retired := false, late := false }

/-- An entry of a submission queue: its first bytes, then zeros. -/
def entryOf (bs : List Nat) : Bytes := bytesOf bs ++ zeros (64 - bs.length)

/-- Queue pair 0 with one entry that the engine may read. -/
def queued (x : Half) : Half :=
  ({ x with pci := { x.pci with down := false } }.setReg (Reg.txeSqCfg 0) 0x80000004#32).setReg (Reg.txeSqTail 0) 1#32 |>.setRBit Reg.pciStatus 3 true |>.setRBit Reg.pciCtrl 0 true

theorem test_witness_QueueEntriesAreTaken :
    let create := entryOf [1, 0, 0, 0, 0, 0, 0xFF, 0xFF]
    let fill := entryOf [2, 0, 0, 0, 0, 0, 0xFF, 0xFF, 0, 0, 0, 0, 8, 0, 0, 0]
    let abort := entryOf [3, 0, 0, 0, 0, 0, 0xFF, 0xFF]
    let t := tmplOf 3 (dport 0)
    let s := on fun x => queued { x with txe := { x.txe with tmpl := [(0, some t)], txn := [(0, some (txnOf t))] } }
    Takes s .h0 0 create ∧ (bn create 0 1 = 1 ∧ s.h0.createTmpl create = some t ∧ sqLen create = 0 ∧ s.h0.freeTids.head? = some 256) ∧
    (Takes (on queued) .h0 0 create ∧ (on queued).h0.createTmpl create = none) ∧
    (Takes s .h0 0 fill ∧ bn fill 0 1 = 2 ∧ (s.h0.fillTxn fill).isSome = true ∧ (txnOf t).h = none) ∧
    Takes s .h0 0 abort ∧ bn abort 0 1 = 3 ∧ sqShape abort = true ∧ bn abort 2 2 = 0 ∧ bn abort 6 2 = 0xFFFF ∧
    s.h0.txn (bn abort 4 2) = some (txnOf t) ∧ (txnOf t).retired = false ∧ (txnOf t).outcome = none ∧ (txnOf t).commit = none := by decide +kernel

/-- An operand of 8 bytes for queue pair 0. -/
def operandOf (payload : Bytes) (seq : Option Nat) : HOp :=
  { sq := 0, ctag := 0#32, len := 8, addr := 0, inline := none, payload := payload, seq := seq }

/-- The half with a transaction under a TID. -/
def withTxn (tid : Nat) (t : Txn) (x : Half) : Half := queued (x.setTxn tid (some t))

theorem test_witness_TransactionsRunToTheirEntries :
    let t := { txnOf (tmplOf 1 (dport 255)) with h := some (operandOf (zeros 8) none) }
    let s := on (withTxn 256 t)
    let r := on fun x => withTxn 256 t { x with txe := { x.txe with readyQ := [256] } }
    let u := { t with outcome := some (0, 0#64), t := { t.t with cq := 0 } }
    let c := on fun x => (withTxn 256 { u with t := t.t } { x with txe := { x.txe with doneQ := [256] } }).setReg (Reg.txeCqCfg 0) 0x80000004#32
    (Calm s ∧ s.h0.asr.active = false ∧ s.h0.run.state ≠ .recovering ∧ s.h0.fabLead = true ∧ s.h0.sys.fallow = none ∧
      s.h0.txn 256 = some t) ∧
    ((operandOf (zeros 8) none).seq = none ∧ (operandOf (zeros 8) none).inline = none ∧ s.h0.canFetch 0 = true ∧ s.h0.qBound 0 = false ∧
      (zeros 8).length = (operandOf (zeros 8) none).len) ∧
    (r.h0.txe.readyQ = [256] ∧ t.t.handler = 1 ∧ t.t.dst = dport 255 ∧ 255 < 256 ∧ t.sent = 0) ∧
    (u.outcome = some (0, 0#64) ∧ c.h0.cqOn 0 = true ∧ c.h0.cqRoom 0 ≠ 0 ∧ c.h0.txe.doneQ = [256] ∧ 256 ≤ (256#12).toNat ∧
      c.h0.replaying = false ∧ c.h0.run.mode = .split ∧ c.h0.pci.down = false ∧ c.h0.busMaster = true ∧ c.h0.qBound 0 = false ∧
      c.h0.rfld (Reg.txeCqBaseLo 0) 12 20 * 4096 + (c.h0.reg (Reg.txeCqBaseHi 0)).toNat * 2 ^ 32 + c.h0.cqTail 0 * 32 < 2 ^ 64) := by decide

theorem test_witness_TransactionsEndEarly :
    let t := { txnOf { tmplOf 1 (dport 0) with toNs := true, timeout := 5, src := 0 } with h := some (operandOf [] none) }
    let u := { t with t := { t.t with dst := 0x4000 } }
    let s := fun v => on (withTxn 4095 v)
    (Calm (s t) ∧ (s t).h0.asr.active = false ∧ (s t).h0.run.state ≠ .recovering ∧ (s t).h0.txn (4095#12).toNat = some t ∧
      t.retired = false ∧ t.outcome = none) ∧
    (u.ready = false ∧ u.running = false ∧ u.t.toNs = true ∧ u.t.timeout ≠ 0 ∧ u.expiring = false ∧ u.t.firstPort = none) ∧
    (Served (s t) .h0 .host = Served (s t) .h0 .host ∧ Served (s t) .h0 .stw ∧ wbit 0x80000FFF#32 31 = true ∧
      fld 0x80000FFF#32 0 12 = (4095#12).toNat ∧ t.commit = none) ∧
    wbit 0#32 31 = false ∧ (operandOf [] none).seq = none ∧ (s t).h0.pci.down = false := by decide

theorem test_witness_QueueRegistersTakeTheirValues :
    let on63 := on fun x => x.setReg (Reg.txeSqCfg 63) 0x80000002#32
    (Served (on id) .h0 .stw ∧ Calm (on id) ∧ (on id).h0.asr.active = false ∧ (on id).h0.asr.landed = false) ∧
    (on fun x => { x with asr := { x.asr with landed := true } }).h0.asr.landed = true ∧
    ((on id).h0.rbit (Reg.txeSqCfg 63) 31 = false ∧ wbit 0x80000002#32 31 = true ∧ 2 ≤ fld 0x80000002#32 0 16) ∧
    (on id).h0.rbit (Reg.txeCqCfg 63) 31 = false ∧ on63.h0.rbit (Reg.txeSqCfg 63) 31 = true ∧ fld 0x80000001#32 0 16 < 2 := by decide

/-- A TRIGGER descriptor of one state. -/
def trgBytes : Bytes := bytesOf [1, 1] ++ zeros 36 ++ bytesOf [1]

theorem test_witness_EnginesAreArmedAndAborted :
    let arming := fun (x : Half) => { x with eng := { x.eng with arming := [(engNum .trigger 3, some (0, false))] } }
    let pend := on fun x => { x with eng := { x.eng with trg := [(3, { TrgEng.zero with st := .pending })] } }
    (Served (on id) .h0 .stw ∧ Calm (on id) ∧ (on id).h0.run.mode = .split ∧ (on id).h0.asr.active = false) ∧
    (wbit 0x1000#32 13 = false ∧ wbit 0x1000#32 12 = true ∧ wbit 0x2000#32 13 = true ∧ wbit 0x2000#32 12 = false) ∧ (on id).h0.eng.arming = [] ∧
    (sget (on arming).h0.eng.arming (engNum .trigger 3) none = some (0, false) ∧ (on arming).h0.run.loaded = none) ∧
    ((on fun x => arming (inState .ready x)).h0.run.loaded ≠ none ∧ ((on arming).h0.trg 3).st.armed = false) ∧
    pend.h0.engSt .trigger 3 = .pending ∧ ((on id).h0.engSt .trigger 3).armed = false := by decide

theorem test_witness_EnginesDriveWriteAndRead :
    let trg := fun t => on fun x => { x with eng := { x.eng with trg := [(3, t)] } }
    let cap := fun c => on fun x => queued { x with eng := { x.eng with cap := [(3, c)] } }
    let d : PlyDesc := { held := false, domain := 0, width := 1, base := 0, size := 64, vectors := 1, loops := 0, segs := [] }
    let ply := on fun x => { x with eng := { x.eng with ply := [(3, { PlyEng.zero with desc := some d, st := .active })] } }
    let host := fun sz => { CapEng.zero with staged := [⟨.host 0 0 sz, [1#8], false⟩] }
    (on id).h0.run.mode = .split ∧ ((trg { TrgEng.zero with xoQ := [⟨2, none⟩] }).h0.trg 3).xoQ = [⟨2, none⟩] ∧
    ((trg { TrgEng.zero with pulse := true }).h0.trg 3).pulse = true ∧
    ((cap { CapEng.zero with staged := [⟨.region 0 0 false, [1#8], false⟩] }).h0.cap 3).staged = [⟨.region 0 0 false, [1#8], false⟩] ∧
    ((cap (host 64)).h0.pci.down = false ∧ (cap (host 64)).h0.busMaster = true ∧ ((cap (host 64)).h0.cap 3).hsSkip = 0) ∧
    ((ply.h0.ply 3).desc = some d ∧ (ply.h0.ply 3).st.armed = true ∧ ((ply.h0.ply 3).buf.length + 1) * d.recSize ≤ 32768 ∧
      d.loops = 0 ∧ d.held = false ∧ NoErrors ply.h0) := by decide

theorem test_witness_EnablingAssuredOperationIsChecked :
    let s := on (inState .ready)
    let t := on fun x => x.setRBit Reg.asrCtrl 0 true
    (Served s .h0 .stw ∧ Calm s ∧ Alone s .h0) ∧
    (s.h0.rbit Reg.asrCtrl 0 = false ∧ wbit 0x2001#32 0 = true ∧ wbit 0x2001#32 1 = false ∧ wbit 0x2001#32 2 = false) ∧
    (s.h0.inRun = false ∧ 10 ≤ fld 0x2001#32 8 6 ∧ fld 0x2001#32 8 6 ≤ 32) ∧ (on id).h0.run.loaded = none ∧
    ((on (inState .running)).h0.run.state = .running ∧ (on (inState .running)).h0.run.loaded.isSome = true) ∧
    (on fun x => { inState .running x with run := { (inState .running x).run with assured := true } }).h0.run.assured = true ∧
    t.h0.rbit Reg.asrCtrl 0 = true ∧ t.h0.asr.active = false := by decide

theorem test_witness_CheckpointsPassTheirPhases :
    let a := on (active (snapOf 0))
    let p : StallPoint := ⟨⟨0, false⟩, 3, none, false, false, 0, 0, 0, 0, false⟩
    let due := on fun x => inState .running (stalled (active (snapOf 0) (x.setRFld Reg.asrCtrl 8 6 10)))
    let due := { due with h0 := { due.h0 with run := { due.h0.run with cyc := 1023#64 } } }
    let ph := fun q => on fun x => { active (snapOf 0) x with asr := { (active (snapOf 0) x).asr with phase := some q, fresh := some (snapOf 1) } }
    (Served a .h0 .stw ∧ Calm a ∧ Alone a .h0 ∧ a.h0.seq.wait = .none) ∧
    (a.h0.asr.active = true ∧ a.h0.asr.phase = none ∧ a.h0.run.linked = false) ∧
    (due.h0.run.stall = some p ∧ due.h0.run.state = .running ∧ due.h0.ckptDue = true ∧ due.h0.hbmStall = false ∧ due.h0.capStall = false ∧
      due.h0.plyStall 0 = false ∧ due.h0.run.cond = none ∧ due.h0.asr.recur = false ∧ due.h0.run.thrReq = none) ∧
    ((ph .copying).h0.asr.phase = some .copying ∧ (ph .copying).h0.asr.fresh = some (snapOf 1)) ∧
    (ph .verifying).h0.asr.phase = some .verifying := by decide +kernel

theorem test_witness_ConfirmedRecordsAreAccepted :
    let r : JRec := ⟨5, 0, 0#64, none, 0, false, false, false, false, .extEdge true⟩
    let s := on fun x => { active (snapOf 0) x with asr := { (active (snapOf 0) x).asr with journal := [r] } }
    s.h0.run.mode = .split ∧ s.h0.asr.active = true ∧ s.h0.asr.journal.find? (fun r => r.jseq == 5 && !r.conf) = some r ∧
    r.body = .extEdge true := by decide

theorem test_witness_RecoveryRestoresAndReplays :
    let s := on fun x => active (snapOf 0) (inState .running (stalled { x with run := { x.run with hfault := true } }))
    let rw := on fun x => { active (snapOf 0) x with asr := { (active (snapOf 0) x).asr with rewrite := true } }
    let rest := on fun x => inState .recovering { active (snapOf 0) x with asr := { (active (snapOf 0) x).asr with restoring := some 0 } }
    let rep := on fun x => inState .recovering (active (snapOf 0) x)
    (Alone s .h0 ∧ s.h0.run.req = none ∧ s.h0.run.hfault = true ∧ s.h0.asr.active = true ∧ s.h0.asr.recur = false ∧
      s.h0.run.stall.isSome = true ∧ s.h0.run.state = .running ∧ s.h0.run.cond = none ∧ s.h0.asr.replay = none ∧
      s.h0.asr.patAgain = false ∧ ({ s.h0.asr with patAgain := true } : Asr).patAgain = true) ∧
    (rw.h0.asr.rewrite = true ∧ rw.h0.sys.stwHalt = false) ∧
    (rest.h0.asr.restoring = some 0 ∧ rest.h0.asr.rewrite = false ∧ rest.h0.run.state = .recovering ∧
      rest.h0.pickGen 0 true false = some (snapOf 0) ∧ rest.h0.run.hfault = false) ∧
    rep.h0.asr.restoring = none ∧ rep.h0.asr.rewrite = false ∧ rep.h0.replaying = false ∧ rep.h0.asr.recur = false := by decide +kernel

theorem test_witness_SignaturesAreCompared :
    let words := fun (v : Nat) => BitVec.ofNat 32 v :: List.replicate 63 0#32
    let s := fun (_ : Nat) => paired (active (snapOf 0))
    let give := fun (v : Nat) (x : Half) => { x with asr := { x.asr with sigs := some (7#64, words v) } }
    let t := { s 0 with h0 := give 0 (s 0).h0, h1 := give 1 (s 0).h1 }
    Calm t ∧ t.paired .h0 = true ∧ t.h0.run.mode = .paired ∧ t.h0.asr.sigs = some (7#64, words 0) ∧ t.h1.asr.sigs = some (7#64, words 1) ∧
    (words 0).length = 64 ∧ (words 1).length = 64 ∧ words 0 ≠ words 1 ∧ t.h0.asr.active = true ∧ t.h0.asr.episode ≠ some 7#64 := by decide +kernel

theorem test_witness_HalvesAreDiagnosedLostAndReplaced :
    let rec_ := paired fun x => { x with asr := { x.asr with recur := true } }
    let diag := paired fun x => inState .recovering { x with asr := { x.asr with st := .diagnosing } }
    let joined : State := { State.reset with h0 := inState .running State.reset.h0, h1 := inState .running State.reset.h1 }
    let lost := (on id).both fun x => { x with asr := { x.asr with sbLost := true, sbBack := 2 } }
    let take := paired fun x => { x with asr := { x.asr with taking := true, mRegs := [(Reg.txeCtrl, 1#32)] } }
    (Calm rec_ ∧ rec_.h0.asr.recur = true) ∧ (Calm diag ∧ diag.h0.asr.st = .diagnosing ∧ diag.h0.inRun = true) ∧
    (lost.h1.asr.sbLost = true ∧ lost.h1.asr.sbBack = 2) ∧
    (Calm joined ∧ joined.h0.asr.sbLost = false ∧ joined.paired .h0 = true ∧ joined.h0.run.mode = .joined ∧ joined.h0.inRun = true) ∧
    Calm take ∧ take.h0.asr.taking = true ∧ sortedFrom 0 take.h0.asr.mRegs = true := by decide +kernel

theorem test_witness_ExportsAndImportsReportTheirEnd :
    let cmd := on fun x => { x with asr := { x.asr with cmd := some (2, false) } }
    (Served (on id) .h0 .stw ∧ (on (inState .running)).h0.asr.cmd = none ∧ (on (inState .running)).h0.run.state = .running) ∧
    cmd.h0.asr.cmd.isSome = true ∧ (on (inState .ready)).h0.run.state = .ready ∧ (on (inState .stopped)).h0.run.state = .stopped ∧
    cmd.paired .h0 = false ∧ cmd.h0.readExport.ok cmd.h0 = false := by decide +kernel

/-- A full bitstream of one frame of zeros, for device database 0. -/
def stream : Bytes :=
  leBytes 4 0 ++ leBytes 4 0 ++ [4#8, 0#8, 0#8, 0#8] ++ leBytes 4 1 ++ leBytes 12 allCols ++ leBytes 4 0x9bf6c57c ++ zeros 32 ++ zeros 136

theorem test_witness_FabricLoadsHoldCheckAndCommit :
    let l : FabLoad := ⟨false, 0, false, false, allCols⟩
    let s := on fun x => { x with fab := { x.fab with load := some l }, mem := wrBytes x.mem hbmBase stream }
    let t := on fun x => { x with fab := { x.fab with load := some { l with addr := 0xC00000000 } } }
    let hd := bsHead (s.h0.fabBytes false 0 64)
    ((on id).h0.fabState ≠ 1 ∧ (on id).h0.fabState ≠ 3 ∧ (on id).h0.rbit Reg.afbLoadCfg 1 = false) ∧
    (on fun x => x.setFabState 3).h0.fabState = 3 ∧ Served (on id) .h0 .txe ∧
    (t.h0.fab.load = some { l with addr := 0xC00000000 } ∧ 0xC00000000 < 0xC00000000 + 64) ∧
    (0 + 64 ≤ 0xC00000000 ∧ 0 + hd.size ≤ 0xC00000000 ∧ natBit hd.flags 1 = false) ∧
    bsCheck [] (zeros 64) (bsHead (zeros 64)) false false = .inl 0x54 := by decide +kernel

theorem blank_merge : mergeLong allCols blankFrame blankFrame = blankFrame := by decide +kernel

theorem blank_region : blankRegion [] allCols = [] := by
  have step (k : Nat) : sput ([] : SMap Bytes) k blankFrame (mergeLong allCols (sget [] k blankFrame) blankFrame) = [] := by
    simp [sget, lookup, blank_merge, sput, erase]
  have all (l : List Nat) : l.foldl (fun m i => sput m (longKey i) blankFrame (mergeLong allCols (sget m (longKey i) blankFrame) blankFrame)) [] = [] := by
    induction l with
    | nil => rfl
    | cons i l ih => rw [List.foldl_cons, step, ih]
  exact all _

theorem blank_lines : longBreach [] = false := by
  have none_ : staticSites blankFrame allCols = 0 := by decide +kernel
  simp [longBreach, sget, lookup, none_]

/-- Where the half supports device database 0, a bitstream passes the checks. -/
theorem test_witness_bitstream_passes (h : Config.dbSupported (bsHead stream).db = true) :
    bsCheck [] stream (bsHead stream) false false = .inr [] := by
  have shape : bsShape stream (bsHead stream) false false = true := by decide +kernel
  have frames : (bsFrames (stream.drop (64 + 16 * (bsHead stream).chans)) (bsHead stream).frames).all
      (fun f => frameOk f false allCols) = true := by decide +kernel
  have written : writeFrames [] allCols (bsFrames (stream.drop (64 + 16 * (bsHead stream).chans)) (bsHead stream).frames) = [] := by
    decide +kernel
  have body : (stream.drop (64 + 16 * (bsHead stream).chans)).take (136 * (bsHead stream).frames) = zeros 68 ++ zeros 68 := by
    decide +kernel
  have half1 : (zeros 68).foldl crcByte 0xFFFFFFFF#32 = 0x27f2b917#32 := by decide +kernel
  have half2 : (zeros 68).foldl crcByte 0x27f2b917#32 = 0x64093a83#32 := by decide +kernel
  simp [bsCheck, shape, h, frames, blank_region, written, blank_lines, body, crc32c, half1, half2]
  decide +kernel

theorem test_witness_FabricReleasesAndAborts :
    let s := fun k => on fun x => { x.setFabState 2 with fab := { x.fab with rel := some (k, allCols) } }
    ((s 0).h0.fab.rel = some (0, allCols) ∧ (s 0).h0.fabState = 2) ∧ (s 4).h0.fab.rel = some (4, allCols) ∧
    (on fun x => { x with fab := { x.fab with load := some ⟨false, 0, false, false, 0⟩ } }).h0.fab.load.isSome = true ∧
    (on id).h0.fab.load = none := by decide

theorem test_witness_LongLinesAndOscillators :
    let data := wrBytes [] 0 [] |>.map (fun c => c.2)
    let s := on fun x => { x with fab := { x.fab with outs := 1, frames := [(longKey 63, 5#8 :: zeros 127)] } }
    let o := on fun x => fabOn (x.setReg (Reg.afbOsc 3) 0x84E20000#32)
    Served s .h0 .stw ∧ 2 ≤ (s.h0.drivers 63 3).length ∧ (s.h0.drivers 63 1).length < 2 ∧ wbit 0x80000000#32 31 = true ∧
    (o.h0.rbit (Reg.afbOsc 3) 31 = true ∧ 20000 ≤ o.h0.rfld (Reg.afbOsc 3) 12 19 ∧ o.h0.rfld (Reg.afbOsc 3) 12 19 ≤ 400000) ∧
    400000 < (on fun x => x.setReg (Reg.afbOsc 3) 0xFFFFF000#32).h0.rfld (Reg.afbOsc 3) 12 19 ∧ o.h0.fab.live ≠ 0 ∧ data = [] := by
  decide +kernel

theorem test_witness_FlashCommandsProgramEraseAndRead :
    let s := fun op => on fun x => (({ x with fab := { x.fab with flCmd := some (op, 0x3FFFF) } } : Half).setRBit Reg.afbFlStat 0 true)
    (Served (on id) .h0 .stw ∧ (on id).h0.rbit Reg.afbFlStat 0 = false) ∧ (s 1).h0.rbit Reg.afbFlStat 0 = true ∧
    ((s 1).h0.fab.flCmd = some (1, 0x3FFFF) ∧ sget (s 1).h0.fab.flash 0x3FFFF none = none) ∧ (s 2).h0.fab.flCmd = some (2, 0x3FFFF) ∧
    sget [(0x3FFFF, some 7#64)] 0x3FFFF none = some 7#64 ∧ sget (s 3).h0.fab.flBad 0x3FFFF false = false := by decide

theorem test_witness_FabricPortsAct :
    let s := on fun x => fabOn (x.setReg (Reg.afbChCfg 31) 0x80000000#32)
    let full := on fun x => fabOn { x with fab := { x.fab with chan := [(31, { Chan.zero with queue := List.replicate 64 0 })] } }
    let q := on fun x => fabOn (x.setReg Reg.afbTxqHi 0x80000000#32)
    let p : HoldReq := ⟨8, some 273, 0#64, false, true⟩
    let h := on fun x => inState .held { x with run := { x.run with cond := some p } }
    (on id).h0.fab.live = 0 ∧ (s.h0.fab.live ≠ 0 ∧ s.h0.run.mode = .split ∧ s.h0.asr.active = false ∧ s.h0.chEn 31 = true ∧ s.h0.fabLead = true ∧
      (s.h0.chan 31).queue.length < 64) ∧ 64 ≤ (full.h0.chan 31).queue.length ∧ s.h0.ackTakes (2 ^ 64 - 2) = true ∧
    s.h0.ackTakes (2 ^ 64 - 1) = false ∧ (q.h0.qBound 63 = true ∧ q.h0.run.loaded ≠ some .paired) ∧
    (Calm s ∧ s.h0.evtAct 277 = 0 ∧ s.h0.evtEn 277 = false) ∧
    (h.h0.run.state = .held ∧ h.h0.run.cond = some p ∧ p.auto = true ∧ h.h0.chansEased = true) ∧ (on id).h0.run.state ≠ .held := by decide

/-- A column of two arithmetic cells that add 3 and 1, and a RAM block whose port A is 8 bits wide. -/
def adderCell (a b : Sig) : CellCfg :=
  { mode := .arith, table := 0x0000000800000006#64, ins := [a, b], ffA := ⟨.f, false, false, false, false⟩
    ffB := ⟨.f, false, false, false, false⟩, clk := .net 0, inv := false, en := .high, force := .low }
def adderNet : Netlist := { Netlist.blank with cells := [(1024, adderCell .high .high), (1025, adderCell .high .low)] }
def ramPort (we : Sig) : RamPort := ⟨.net 0, false, 3, 1, 0, .high, we, [.low, .high], [.high, .low, .high]⟩
def ramCfg (we : Sig) : RamCfg := ⟨ramPort we, ramPort .low, 0x12340000#32768⟩
def liveCols : Half := { Half.zero .h0 with fab := { Fab.zero with live := 2 ^ 96 - 1 } }

theorem test_witness_FabricLogicFollowsItsConfiguration :
    (lookup adderNet.cells 1024 = some (adderCell .high .high) ∧ lookup adderNet.cells 1025 = some (adderCell .high .low)) ∧
    (ramCfg .high).a.logW ≤ 5 ∧ liveCols.sig 0 (ramCfg .high).a.en = true ∧ natBit liveCols.fab.live (8 / 8) = true ∧
    liveCols.sig 0 (ramCfg .high).a.we = true ∧ liveCols.sig 0 (ramCfg .low).a.we = false := by decide

/-- 3 + 1 = 4: both SUM outputs are 0, and the carry goes on. -/
theorem test_adder : (liveCols.cellOut adderNet 0 1024 (adderCell .high .high)).2.2 = false ∧
    (liveCols.cellOut adderNet 0 1025 (adderCell .high .low)).2.2 = false ∧ liveCols.cin adderNet 0 1 2 = true := by decide

set_option exponentiation.threshold 40000 in
set_option maxRecDepth 20000 in
/-- Port A writes 5 into word 2, which holds 0x34, and shows what stood there (PRIOR). -/
theorem test_ram_write :
    let y := liveCols.ramEdge 0 8 (ramCfg .high) true false
    y.ramBits 8 (ramCfg .high) = 0x12050000#32768 ∧ sget y.fab.cell.rout 16 none = some (0x34, 0x34) := by decide


theorem test_witness_FabricReachesItsWindow :
    let s := on fun x => fabOn ((x.setReg Reg.afbHbmBase 0#32).setReg Reg.afbHbmSize 0x1000#32)
    s.h0.fab.live ≠ 0 ∧ regionOf (0x1000000000#40).toNat 3 = some .hbm ∧ AtRest s.h0 ∧ NoErrors s.h0 ∧ Calm s ∧
    s.h0.rfld Reg.stwBoot 26 2 = 0 ∧ s.h0.fabReach (0x1000000000#40).toNat 3 = true ∧
    hbmMeets (0x1000000000#40).toNat 3 (s.h0.capRanges 4 ++ s.h0.plyRanges 4) = false ∧ (0#40).toNat < hbmBase := by decide

theorem test_witness_PinRegistersAct :
    let s := on fun x => (x.setReg (Reg.pinBankVio) 0xF00#32)
    let drv := on fun x => { (x.setReg Reg.pinBankVio 0#32) with pins := { x.pins with extest := true, scanEn := BitVec.allOnes 64 } }
    let z := on fun x => ((x.setReg Reg.pinBankVio 0#32).setReg (Reg.pinPad 0) 0#32).setReg (Reg.pinPad 1) 0#32
    let d := on fun x => x.setReg (Reg.edgDesc 0 3) 0x00010000#32
    Served s .h0 .stw ∧ (0x2FF < 0x300 ∧ outFnOk 0x2FF = true) ∧ outFnOk 0x44 = false ∧
    (drv.h0.rfld Reg.pinBankVio 0 8 = 0 ∧ ∀ p, p < 64 → (drv.h0.padDrive p).2 = true) ∧
    (z.h0.rfld Reg.pinBankVio 0 8 = 0 ∧ (∀ p, p < 64 → (z.h0.padDrive p).2 = false) ∧ z.h0.reg (Reg.pinPad 0) = 0#32 ∧
      z.h0.reg (Reg.pinPad 1) = 0#32) ∧
    (on (inState .running)).h0.inRun = true ∧ (s.h0.inRun = false ∧ wbit 0#32 31 = false) ∧
    (d.dsnOk .h0 0x80000000#32 64 = true ∧ ∀ b ∈ dsnKeys 0x80000000#32 64, b ∉ d.h0.inputsHeld ++ d.h0.dsnBits Reg.ptmDsn 96) ∧
    wbit 0x80000000#32 31 = true ∧ (on id).dsnOk .h0 0x80000000#32 64 = false := by decide +kernel

theorem test_witness_PinInputsAreSynchronisedAndDebounced :
    let s := on fun x => (x.setReg Reg.pinBankVio 0x800#32).setRFld (Reg.pinCfg 63) 16 4 1
    let t := { s with h0 := s.h0.setRBit (Reg.pinPad 1) 31 true }
    s.h0.sys.fallow = none ∧ s.h0.rbit Reg.pinBankVio (8 + 63 / 16) = true ∧ t.h0.pinBit Reg.pinDeb 63 = false ∧
    t.h0.pinBit Reg.pinPad 63 = true ∧ t.h0.rfld (Reg.pinCfg 63) 16 4 = 1 := by decide

theorem test_witness_LanesAndQuadsLockAndLose :
    let s := on fun x => x.setReg (Reg.lnkQuad 11) 0x40000001#32
    let cfg := 0x80000000#32
    let lk := on fun x => (x.setReg (Reg.lnkLaneCfg 47) 0x80000000#32).setRBit (Reg.lnkLaneStat 47) 7 true
    (Served s .h0 .stw ∧ (47#6).toNat < 48 ∧ (11#4).toNat < 12) ∧
    (wbit cfg 31 = true ∧ s.h0.rbit (Reg.lnkLaneCfg 47) 31 = false ∧ s.h0.laneInBundle 47 = false ∧ fld cfg 28 2 ≠ 3 ∧ tapsOver cfg = false ∧
      pcsOk (s.h0.lanePll 47 cfg).1 (fld cfg 28 2) = true ∧ (s.h0.lanePll 47 cfg).2 = true) ∧ ((on id).h0.lanePll 47 cfg).2 = false ∧
    (lk.h0.laneOn 47 = true ∧ lk.h0.laneRaw 47 = true ∧ lk.h0.rbit (Reg.lnkLaneStat 47) 7 = true) ∧
    ((on id).h0.rfld (Reg.lnkQuad 11) 0 4 ≠ fld 9#32 0 4 ∧ fld 9#32 0 4 < 10 ∧ fld 9#32 4 4 = (on id).h0.rfld (Reg.lnkQuad 11) 4 4 ∧
      wbit 9#32 29 = false ∧ (on id).h0.pllUsed 11 false = false) ∧
    (on fun x => x.setReg (Reg.lnkLaneCfg 47) 0x80000000#32).h0.pllUsed 11 false = true ∧ s.h0.rfld (Reg.lnkQuad 11) 0 4 ≠ 0 := by decide

/-- A half whose start-up is over, so that nothing holds its endpoint core. -/
def coreUp (x : Half) : Half := { x with sys := { x.sys with booting := false } }

/-- A half whose PCIe link is up and whose host may reach it. -/
def linkedUp (x : Half) : Half := ((coreUp x).setRBit Reg.pciStatus 0 true).setRBit Reg.pciCtrl 0 true

theorem test_witness_HostRequestsReachTheirHalf :
    let s := on linkedUp
    let t := on fun x => x.setRBit Reg.pciStatus 0 true
    let a := hbmBase + (0#40).toNat
    (on id).h0.rbit Reg.pciStatus 0 = false ∧
    (s.h0.rbit Reg.pciStatus 0 = true ∧ s.h0.rbit Reg.pciStatus 1 = false ∧ s.h0.coreHeld = false) ∧
    (s.h0.rbit Reg.pciCtrl 0 = true ∧ s.h0.sys.fallow = none ∧ AtRest s.h0 ∧ NoErrors s.h0 ∧ Calm s ∧ s.h0.rfld Reg.stwBoot 26 2 = 0 ∧
      regionOf a 8 = some .hbm ∧ (0#40).toNat + 8 ≤ 2 ^ 36 ∧ hbmMeets a 8 (s.h0.capRanges 4 ++ s.h0.plyRanges 4) = false) ∧
    ((1#3) ≠ 0#3 ∧ (1#3) ≠ 2#3 ∧ (1#3) ≠ 4#3) ∧ t.h0.rbit Reg.pciCtrl 0 = false ∧ (0xFFFFFFFC#40).toNat + 4 ≤ 2 ^ 32 ∧ 1023 < 1024 := by
  decide

theorem test_witness_LinkConfigurationAndMessages :
    let held := on fun x => ({ coreUp x with pci := { x.pci with held := [(2 ^ 64 - 4, [1#8], none)] } } : Half).setRBit Reg.pciStatus 3 true |>.setRBit Reg.pciCtrl 0 true
    let pend := on fun x => ({ x with pci := { x.pci with mxTab := [(1023, 0#32)], mxPend := [(255, true)], down := false } } : Half).setReg Reg.pciStatus 0xD#32 |>.setRBit Reg.pciCtrl 0 true
    (on fun x => { x with sys := { x.sys with asserted := 256 } }).h0.coreHeld = true ∧ (on coreUp).h0.coreHeld = false ∧
    (on coreUp).h0.pci.held = [] ∧ (on coreUp).h0.pci.mxPend = [] ∧
    (held.h0.coreHeld = false ∧ held.h0.pci.held = [(2 ^ 64 - 4, [1#8], none)] ∧ held.h0.busMaster = true ∧ held.h0.rbit Reg.pciStatus 1 = false) ∧
    (sget pend.h0.pci.mxPend 255 false = true ∧ pend.h0.pci.funcMask = false ∧ wbit (pend.h0.mxWord (4 * 255 + 3)) 0 = false ∧
      pend.h0.busMaster = true ∧ pend.h0.rbit Reg.pciStatus 2 = true ∧ pend.h0.pci.down = false) ∧
    sget (on id).h0.pci.mxPend 255 false = false ∧ (⟨some 0#10, false, false, false, false⟩ : CfgReq).read = some 0#10 := by decide

/-- A good frame of 60 zero bytes. -/
def frameOf (ok : Bool) : EthFrame := ⟨zeros 60, ok, ⟨0, 0, 0⟩⟩

theorem test_witness_EthernetFramesComeAndGo :
    let port := fun c => fun (x : Half) => x.setReg Reg.lnkMeCfg c
    let s := on (port 0x80000000#32)
    let ring := on fun x => port 0x88000000#32 (x.setReg Reg.lnkMeRxSize 0x1000#32)
    let far := on fun x => (port 0x80000000#32 x).setReg Reg.lnkMeAddrLo 1#32
    let tx := on fun x => (port 0x80000000#32 (x.setReg Reg.lnkMeTxSize 0x1000#32)).setReg Reg.lnkMeTxWptr 0x40#32
    let n := (rxRecord (frameOf true).bytes false (adjusted (frameOf true).stamp ring.h0.rxAdj)).length
    (on id).h0.rbit Reg.lnkMeCfg 31 = false ∧ (s.h0.rbit Reg.lnkMeCfg 31 = true ∧ s.h0.sys.fallow = none) ∧ (frameOf false).fcsOk = false ∧
    ((frameOf true).fcsOk = true ∧ 60 ≤ (frameOf true).bytes.length ∧ (frameOf true).bytes.length ≤ 9212 ∧
      isPause (frameOf true).bytes = false ∧ ptpAt (frameOf true).bytes = none ∧ far.h0.admits (frameOf true).bytes = false) ∧
    (ring.h0.admits (frameOf true).bytes = true ∧ ring.h0.rfld Reg.lnkMeRxWptr 0 20 + n ≤ ring.h0.rfld Reg.lnkMeRxSize 0 20 ∧
      ring.h0.rfld Reg.lnkMeRxRptr 0 20 ≤ ring.h0.rfld Reg.lnkMeRxWptr 0 20 ∧ n < ring.h0.rfld Reg.lnkMeRxSize 0 20 ∧ n = 88) ∧
    (tx.h0.sys.frames = [] ∧ tx.h0.rfld Reg.lnkMeTxRptr 0 20 ≠ tx.h0.rfld Reg.lnkMeTxWptr 0 20 ∧
      tx.h0.rdMem (spAddr 6 + 2) 2 = 0 ∧ tx.h0.rdMem (spAddr 6) 2 ≤ 9212) ∧ Served s .h0 .stw ∧
    (0#32 ^^^ s.h0.reg Reg.lnkMeCfg) &&& 0x7E000000#32 = 0#32 ∧ (0x02000000#32 ^^^ s.h0.reg Reg.lnkMeCfg) &&& 0x7E000000#32 ≠ 0#32 := by
  decide +kernel

theorem test_witness_TheClockIsReadSetAndItsStampsTaken :
    let q := on fun x => { x with ptm := { x.ptm with txts := [(3, 7, ⟨0, 0, 0⟩)], tcap := [(1, [(⟨0, 0, 0⟩, true)])] } }
    Served (on id) .h0 .stw ∧ ((on id).h0.rbit Reg.ptmCtrl 0 = false ∧ 0x40#32 &&& 0x81#32 = 0#32) ∧
    ((on fun x => x.setRBit Reg.ptmCtrl 0 true).h0.rbit Reg.ptmCtrl 0 = true ∧ 0x41#32 &&& 0x81#32 = 1#32) ∧ wbit 0x81#32 6 = false ∧
    q.h0.ptm.txts = [(3, 7, ⟨0, 0, 0⟩)] ∧ (on id).h0.ptm.txts = [] ∧ sget q.h0.ptm.tcap 1 [] = [(⟨0, 0, 0⟩, true)] ∧
    sget (on id).h0.ptm.tcap 1 [] = [] := by decide

theorem test_witness_PulseOutputsFollowTheirSchedule :
    let cfg := fun (x : Half) => (x.setReg (Reg.ptmTpoWidth 3) 4#32).setReg (Reg.ptmTpoNs 3) 999999999#32
    let s := on cfg
    let late := on fun x => { cfg x with ptm := { x.ptm with time := 10 ^ 9 * 2 ^ 32 } }
    let armed := fun hi => on fun x => { (cfg x).setReg (Reg.ptmTpoStat 3) 0x10000000#32 with
      ptm := { x.ptm with tpo := [(3, ⟨0, if hi then 1 else 0, hi, false⟩)], time := 2 ^ 40 } }
    let d := on fun x => x.setReg (Reg.edgDesc 0 3) 0x00010000#32
    let start := fun (s : State) => s.h0.reg64 (Reg.ptmTpoSecLo 3) (Reg.ptmTpoSecHi 3) * 1000000000 + (s.h0.reg (Reg.ptmTpoNs 3)).toNat
    (Served s .h0 .stw ∧ s.h0.tpoArmed 3 = false ∧ 4 ≤ s.h0.tpoWidth 3 ∧ s.h0.tpoPeriod 3 = 0 ∧
      (s.h0.reg (Reg.ptmTpoNs 3)).toNat ≤ 999999999 ∧ s.h0.ptm.time + 1000 * 2 ^ 32 ≤ start s * 2 ^ 32) ∧
    (late.h0.tpoArmed 3 = false ∧ start late * 2 ^ 32 < late.h0.ptm.time + 1000 * 2 ^ 32) ∧ ((on id).h0.tpoArmed 3 = false ∧ ¬ 4 ≤ (on id).h0.tpoWidth 3) ∧
    ((armed false).h0.tpoArmed 3 = true ∧ ((armed false).h0.tpo 3).high = false ∧ (armed false).h0.sys.fallow = none ∧
      (armed false).h0.tpoNext 3 * 2 ^ 32 ≤ (armed false).h0.ptm.time) ∧
    ((armed true).h0.tpoArmed 3 = true ∧ ((armed true).h0.tpo 3).high = true ∧ (armed true).h0.tpoNext 3 * 2 ^ 32 ≤ (armed true).h0.ptm.time ∧
      (armed true).h0.tpoCount 3 = some ((armed true).h0.tpo 3).n) ∧
    (on (inState .running)).h0.inRun = true ∧ ((on id).h0.inRun = false ∧ wbit 0#32 31 = false) ∧
    (d.dsnOk .h0 0x80000020#32 96 = true ∧ ∀ b ∈ dsnKeys 0x80000020#32 96, b ∉ d.h0.inputsHeld ++ d.h0.dsnBits Reg.pinDsnIn 64) ∧
    wbit 0x80000020#32 31 = true ∧ (on id).dsnOk .h0 0x80000020#32 96 = false := by decide +kernel

theorem test_witness_DomainsFollowTheirMaster :
    let msg : PtpMsg := ⟨0#8, 0#4, 2#4, -3, 1#64, 1#16, 5#16⟩
    let dom := fun (p : PtpDom) (x : Half) => { x.setReg (Reg.ptmDomCfg 1) 0x80000000#32 with ptm := { x.ptm with dom := [(1, p)] } }
    let lis := on (dom { PtpDom.zero with st := 1 })
    let p := { PtpDom.zero with st := 5, master := some (1#64, 1#16), delay := some 0, sync := some (5#16, 0), req := some (5#16, 0), last := some (0, 0) }
    let s := on (dom p)
    let b := on fun x => (dom p x).setReg Reg.ptmStatus 3#32
    let a := on fun x => ({ x.setReg Reg.ptmStatus 3#32 with ptm := { x.ptm with dom := [(0, { p with fresh := true })] } } : Half).setReg Reg.ptmCtrl 0x01000000#32
    (lis.h0.sys.fallow = none ∧ lis.h0.matched msg (-3) = some 1 ∧ (lis.h0.pdom 1).st ≠ 0 ∧ (lis.h0.pdom 1).master = none ∧
      lis.h0.rbit (Reg.ptmDomCfg 1) 30 = false) ∧
    (s.h0.sys.fallow = none ∧ s.h0.matched msg (-7) = some 1 ∧ (s.h0.pdom 1).master = some (msg.clockId, msg.portNumber)) ∧
    ((s.h0.pdom 1).delay = some 0 ∧ s.h0.stepped = false ∧ s.h0.candidate 1 = true) ∧ (s.h0.pdom 1).sync = some (msg.sequenceId, 0) ∧
    (PtpDom.zero.delay = none ∧ PtpDom.zero.sync = none) ∧
    ((s.h0.pdom 1).req = some (msg.sequenceId, 0) ∧ (s.h0.pdom 1).last = some (0, 0) ∧ (s.h0.pdom 1).st ≠ 2) ∧
    (s.h0.pdom 1).master.isSome = true ∧
    (b.h0.stepped = true ∧ b.h0.ptm.holdover = false ∧ b.h0.ptpActive = 1 ∧ (b.h0.pdom 1).st = 5 ∧ b.h0.ptpValid 0 = false) ∧
    (a.h0.ptpActive = 1 ∧ a.h0.stepped = true ∧ a.h0.ptpValid 0 = true ∧ a.h0.rfld Reg.ptmCtrl 24 8 ≠ 0 ∧ a.h0.rfld Reg.ptmCtrl 4 2 = 0) ∧
    (on id).h0.ptpActive = 0 := by decide

theorem test_witness_NetworkErrorsAndProbesAreCounted :
    let p : ProbePkt := ⟨0#3, 0#2, 0#8, 0#4, 0#8, 1#8, 0#8, 0#40, 3, 4⟩
    let s := on fun x => x.setReg (Reg.nocPrbCfg 15) 0x80000001#32
    (s.h0.probePoint 15 p = true ∧ s.h0.probeHits 15 p = true ∧ NoTrace s.h0) ∧ (on id).h0.probeHits 15 p = false ∧
    Served s .h0 .stw ∧ (on id).h0.rbit (Reg.nocPrbCfg 15) 31 = false := by decide

theorem test_witness_TracingStartsMovesAndStops :
    let s := on fun x => x.setReg Reg.trcCtrl 0x80000100#32
    let run := on fun x => ((x.setReg Reg.trcCtrl 0x80000100#32).setRBit Reg.trcStatus 29 true).setReg Reg.trcSrcEn 1#32
    let go := on fun x => (x.setReg Reg.trcCtrl 0x80000000#32).setReg (Reg.trcEmS 0) 0x1210#32
    let ring := on fun x => x.setReg Reg.trcHbmSize 1#32
    (Served s .h0 .stw ∧ (on id).h0.rbit Reg.trcCtrl 31 = false ∧ wbit 0#32 31 = false) ∧
    (wbit 0xA0000000#32 31 = true ∧ fld 0xA0000000#32 28 2 = 2 ∧ (on id).h0.trcRingOk = false) ∧ ring.h0.trcRingOk = true ∧
    (s.h0.rbit Reg.trcCtrl 31 = true ∧ s.h0.traceOn = false) ∧
    (go.h0.rbit Reg.trcCtrl 31 = true ∧ go.h0.rfld (Reg.trcEmS (go.h0.rfld Reg.trcStatus 30 2)) 0 10 = 0x210 ∧
      go.h0.rbit (Reg.trcEmS (go.h0.rfld (Reg.trcEmS (go.h0.rfld Reg.trcStatus 30 2)) 12 2)) 31 = go.h0.rbit Reg.trcStatus 29) ∧
    ((s.h0.rbit Reg.trcCtrl 31 && s.h0.rbit (Reg.trcEmS 0) 31) = s.h0.traceOn) ∧ (run.h0.traceOn = true ∧ run.h0.rfld Reg.trcCtrl 8 8 ≠ 0) ∧
    (∃ n, n < 64 ∧ run.h0.srcEnabled n = true ∧ sget run.h0.trc.lost n none = none ∧ traceWords (sget run.h0.trc.fifo n []) + 7 ≤ 64) ∧
    (on id).h0.trc.stw.length < 7 ∧ 7 ≤ (List.replicate 7 0#32).length ∧ Master.seq ≠ .stw ∧ (on id).h0.trc.stw = [] := by decide +kernel

/-- Events latched for either arc of the event machine, and steward words of a packet that finds room. -/
theorem test_witness_TracingStartsMovesAndStops_events :
    let go := on fun x => { (x.setReg Reg.trcCtrl 0x80000000#32).setReg (Reg.trcEmS 0) 0x1210#32 with trc := { x.trc with evts := [0x210] } }
    let go1 := on fun x =>
      { (x.setReg Reg.trcCtrl 0x80000000#32).setReg (Reg.trcEmS 0) 0x12100005#32 with trc := { x.trc with evts := [0x210] } }
    let log := on fun x => { ((((x.setReg Reg.trcCtrl 0x80000000#32).setRBit Reg.trcStatus 29 true).setReg Reg.trcSrcEn 0xFFFFFFFF#32).setRBit
        Reg.secStatus 25 true).setRBit Reg.secStatus 23 true with
      trc := { x.trc with stw := [7#32] } }
    (go.h0.rbit Reg.trcCtrl 31 = true ∧ go.h0.rfld (Reg.trcEmS (go.h0.rfld Reg.trcStatus 30 2)) 0 10 ∈ go.h0.trc.evts) ∧
    (go1.h0.rfld (Reg.trcEmS (go1.h0.rfld Reg.trcStatus 30 2)) 0 10 ∉ go1.h0.trc.evts ∧
      go1.h0.rfld (Reg.trcEmS (go1.h0.rfld Reg.trcStatus 30 2)) 16 10 ∈ go1.h0.trc.evts ∧
      go1.h0.rbit (Reg.trcEmS (go1.h0.rfld (Reg.trcEmS (go1.h0.rfld Reg.trcStatus 30 2)) 28 2)) 31 = go1.h0.rbit Reg.trcStatus 29) ∧
    (log.h0.traceOn = true ∧ log.h0.srcEnabled 0x20 = true ∧ log.h0.trc.stw ≠ [] ∧ sget log.h0.trc.lost 0x20 none = none ∧
      log.h0.trc.tclk - (sget log.h0.trc.last 0x20 none).getD log.h0.trc.tclk < 2 ^ 18 ∧
      traceWords (sget log.h0.trc.fifo 0x20 []) + log.h0.trc.stw.length + 1 ≤ 64) := by decide +kernel

theorem test_witness_SupplyAndTemperatureAreWatched :
    let hot := on fun x => (x.setRBit Reg.pwrStatus 5 true)
    let hot := { hot with h0 := { hot.h0 with run := { hot.h0.run with throttled := true } } }
    let trip := on fun x => { x with sys := { x.sys with hot := 1 } }
    let sw := on fun x => { x with run := { x.run with thrReq := some true } }
    let lost := fun (f : Half → Half) => (on id).both fun x => f (x.setRFld Reg.pwrStatus 1 2 0)
    let stop := lost fun x => { x with sys := { x.sys with fail := some .stopping } }
    let held := (on id).both fun x => { x.setRFld Reg.pwrStatus 1 2 3 with sys := { x.sys with fail := some .held } }
    (on id).paired .h0 = false ∧ (760 < (799#16).toInt ∧ (799#16).toInt < 800) ∧
    (800 ≤ (800#16).toInt ∧ (863#16).toInt < 864 ∧ (on id).h0.rbit Reg.pwrStatus 5 = false ∧ (on id).h0.run.throttled = false) ∧
    ((760#16).toInt ≤ 760 ∧ hot.h0.rbit Reg.pwrStatus 5 = true ∧ hot.h0.run.throttled = true) ∧
    (864 ≤ (864#16).toInt ∧ 1 ≤ trip.h0.sys.hot) ∧ (on id).h0.run.thrReq = none ∧
    (sw.h0.run.thrReq = some true ∧ sw.h0.run.linked = false ∧ sw.h0.run.stall = none ∧ sw.h0.inRun = false ∧ sw.h0.evtAct 279 = 0 ∧
      sw.h0.seq.wait = .none ∧ NoTrace sw.h0 ∧ Calm sw) ∧
    ((lost id).h0.rbit Reg.pwrStatus 1 = false ∧ (lost id).h1.rbit Reg.pwrStatus 2 = false ∧ (lost id).h0.sys.fail = none ∧ Calm (lost id) ∧
      (lost id).h0.run.state ≠ .running) ∧
    ((lost (inState .running)).h0.run.state = .running ∧ (lost (inState .running)).h1.run.state = .running) ∧
    (stop.h0.sys.fail = some .stopping ∧ stop.h1.sys.fail = some .stopping) ∧
    held.h0.rbit Reg.pwrStatus 1 = true ∧ held.h0.sys.fail = some .held ∧ held.h1.sys.fail = some .held := by decide

theorem test_witness_ReferencesAndFallow :
    let v := on fun x => x.setReg Reg.clkStatus 0x8#32
    let hold := on fun x => (x.setReg Reg.clkStatus 0x828#32).setReg Reg.clkRefCfg 0x18#32
    let mv := on fun x => { x with sys := { x.sys with pllMove := true } }
    let fal := on fun x => ({ x with sys := { x.sys with fallow := some (.mbx 2), wake := 8 } } : Half).setReg Reg.pwrWake 0x80000000#32
    ((2#2) ≠ 3#2 ∧ v.h0.srcValid 0 = true ∧ v.h0.inUse = 0) ∧ (on fun x => x.setReg Reg.clkStatus 0#32).h0.srcValid 2 = false ∧
    (hold.h0.rbit Reg.clkStatus 11 = true ∧ hold.h0.sys.pllMove = false ∧ hold.h0.inUse = 0) ∧ mv.h0.sys.pllMove = true ∧
    (hold.paired .h0 = false ∧ hold.h0.rbit Reg.clkRefCfg 4 = true ∧ hold.h0.clkSecondary = some 2 ∧ hold.h0.srcValid 2 = true) ∧
    (v.h0.sys.pllMove = false ∧ v.h0.rbit Reg.clkStatus 11 = false) ∧
    (Served v .h0 .stw ∧ (on (inState .running)).h0.inRun = true ∧ v.h0.inRun = false ∧ ∀ b, b < 12 → v.h0.rbit (Reg.lnkTmBcfg b) 0 = false) ∧
    (fal.h0.sys.fallow.isSome = true ∧ fal.h0.rbit Reg.pwrWake 31 = true) ∧ v.h0.rbit Reg.pwrWake 31 = false ∧
    fal.h0.wakeCause = some 3 ∧ v.h0.sys.fallow = none := by decide

theorem test_witness_ResetsReachWhatTheyReach :
    let w := on fun x => x.setReg Reg.rstWdog 0x80000000#32
    let a := on fun x => { x with sys := { x.sys with asserted := 2 ^ 11 } }
    (Served (on id) .h0 .seq ∧ Master.seq ≠ .stw) ∧ w.h0.rbit Reg.rstWdog 31 = true ∧ (on id).h0.rbit Reg.rstWdog 31 = false ∧
    ((on id).h0.pins.extest = false ∧ (on id).h1.pins.extest = false) ∧ (5 ≤ 21 ∧ 21 < 22 ∧ 21 ≠ 16 ∧ 21 ≠ 18 ∧ (on id).h0.inRun = false) ∧
    (on (inState .running)).h0.inRun = true ∧ (11#4 ≠ 1#4 ∧ natBit a.h0.sys.asserted (11#4).toNat = true) ∧
    natBit (on id).h0.sys.asserted (11#4).toNat = false := by decide

/-- A half whose release sequence has reached a stage. -/
def atStage (n : Nat) (x : Half) : Half := x.setRFld Reg.stwBoot 16 4 n

/-- A firmware image without a body. -/
def firmware : Bytes := bytesOf [0x4C, 0x52, 0x4E, 0x46, 1, 0, 0, 0] ++ zeros 20 ++ leBytes 4 0xf076db9d

theorem test_witness_TheReleaseSequenceGoesStageByStage :
    let s := fun n => on (atStage n)
    let fw := on fun x => atStage 3 { x with mem := wrBytes x.mem (flashBase + fwBase false) firmware }
    (on fun x => { x with sys := { x.sys with asserted := 1 } }).h0.heldInReset = true ∧
    ((s 0).h0.sys.booting = true ∧ (s 0).h0.heldInReset = false ∧ (s 0).h0.rfld Reg.stwBoot 16 4 = 0 ∧ (s 1).h0.lcs = 0) ∧
    ((s 3).h0.rfld Reg.stwBoot 16 4 = 3 ∧ (s 3).h0.rbit Reg.secStatus 16 = false ∧ (s 3).h0.chooseFw = none) ∧
    (fw.h0.chooseFw = some (false, firmware) ∧ fw.h0.sec.tampered = false) ∧
    (on fun x => atStage 6 (x.setReg Reg.memMarchStatus 1#32)).h0.marchBusy = true ∧ (s 6).h0.marchBusy = false := by decide +kernel

/-- Mailbox instance `k` has a command before the steward. -/
def asked (k code : Nat) (x : Half) : Half :=
  { (x.setReg (Reg.stwMbxStat k) 1#32).setReg (Reg.stwMbxCtrl k) (BitVec.ofNat 32 code) with sys := { x.sys with mbx := [k] } }

/-- A half in a life-cycle state. -/
def inLife (n : Nat) (x : Half) : Half := { x with sec := { x.sec with otp := { x.sec.otp with lcs := n } } }

/-- A stop record without entries. -/
def stopRec : Bytes := bytesOf [0x4C, 0x52, 0x4E, 0x53, 1, 0] ++ zeros 66 ++ leBytes 4 0x0d34974e

theorem test_witness_MailboxCommandsEndWithTheirResult :
    let s := fun c => on (asked 2 c)
    let r := on fun x => asked 2 7 { x with mem := wrBytes x.mem (flashBase + stopBase) stopRec }
    ¬ Turn (s 2).h0 2 1 ∧ Turn (s 1).h0 2 1 ∧ Turn (s 2).h0 2 2 ∧ (on fun x => asked 2 2 (inLife 1 x)).h0.permitted = true ∧
    (s 2).h0.permitted = false ∧ Turn (s 5).h0 2 5 ∧ Turn (s 6).h0 2 6 ∧ (Turn (s 7).h0 2 7 ∧ (s 7).h0.newestStop = none) ∧
    (Turn r.h0 2 7 ∧ r.h0.newestStop = some stopRec ∧ sp6 (r.h0.arg 2 0) stopRec.length = some (spAddr 6)) ∧ Turn (s 8).h0 2 8 ∧
    (Turn (on fun x => inState .running (asked 2 4 x)).h0 2 4 ∧ (on fun x => inState .running (asked 2 4 x)).mayFallow .h0 = false) ∧
    (Turn (s 4).h0 2 4 ∧ (s 4).mayFallow .h0 = true ∧ (s 4).paired .h0 = false) := by decide +kernel

theorem test_witness_ImageLoadsBeginAndEnd :
    let s := fun len => on fun x => asked 2 3 (inLife 1 ((x.setReg (Reg.stwMbxArg 2 4) 2#32).setReg (Reg.stwMbxArg 2 2) len))
    let bad := { s 0#32 with h0 := (s 0#32).h0.setReg (Reg.stwMbxArg 2 0) 8#32 }
    let run := { s 0#32 with h0 := inState .running (s 0#32).h0 }
    let ld := on fun x => { x with sys := { x.sys with load := some (2, 2, 0, 64) } }
    (s 0#32).wf = true ∧ (Turn (on (asked 2 3)).h0 2 3 ∧ (on (asked 2 3)).h0.permitted = false ∧ (on (asked 2 3)).h0.sys.load = none) ∧
    (Turn (s 0#32).h0 2 3 ∧ (s 0#32).h0.sys.load = none ∧ 2 ≤ (s 0#32).h0.arg 2 4 % 4 ∧ (s 0#32).h0.permitted = true ∧
      (s 0#32).h0.rbit Reg.stwBoot 29 = false ∧ (s 0#32).h0.sys.fallow = none ∧ NoErrors (s 0#32).h0 ∧ (s 0#32).h0.arg 2 0 % 64 = 0) ∧ (s 0#32).h0.inRun = false ∧ (s 0#32).h0.marchBusy = false ∧
    (Turn bad.h0 2 3 ∧ bad.h0.arg 2 0 % 64 ≠ 0) ∧ (Turn run.h0 2 3 ∧ run.h0.inRun = true) ∧
    (ld.h0.sys.load = some (2, 2, 0, 64) ∧ ld.h0.sys.stwHalt = false ∧
      (((ld.h0.staged 2 0 64).check ld).find? (fun g => !isWarn g.code)).isSome = true) ∧ (on id).h0.sys.load = none ∧
    (let fl := { (s 0#32).h0 with sys := { (s 0#32).h0.sys with fallow := some .seq } };
      Turn fl 2 3 ∧ fl.sys.load = none ∧ fl.sys.fallow.isSome = true) := by decide +kernel

/-- A half with an identity that signs, and an empty certificate chain. -/
def signing (x : Half) : Half := { x with sec := { x.sec with otp := { x.sec.otp with lcs := 1, key := some [], chain := some (sha384 [], 0) } } }

theorem chain_signing : (on signing).h0.chain = some [] := by
  have c : (on signing).h0.sec.otp.chain = some (sha384 [], 0) := rfl
  have b : (on signing).h0.flashBytes chainBase 0 = [] := rfl
  simp only [Half.chain, c, b, if_true]

theorem test_witness_MeasurementsAreGivenAndExtended :
    let s := fun k c => on (asked k c)
    ¬ Turn (s 2 1).h0 2 0x40 ∧ Turn (s 2 0x41).h0 2 0x41 ∧ Turn (s 1 0x50).h0 1 0x50 ∧ (Turn (s 2 0x40).h0 2 0x40 ∧ (s 2 0x40).h0.arg 2 0 < 8) ∧
    8 ≤ (on fun x => asked 2 0x40 (x.setReg (Reg.stwMbxArg 2 0) 8#32)).h0.arg 2 0 ∧ (s 0 0x41).h0.signs = false ∧
    (Turn (on fun x => asked 1 0x41 (signing x)).h0 1 0x41 ∧ (on fun x => asked 1 0x41 (signing x)).h0.signs = true ∧ sp6 0 560 = some (spAddr 6)) ∧
    (Turn (on fun x => asked 1 0x42 (signing x)).h0 1 0x42 ∧ sp6 0 0 = some (spAddr 6)) ∧ (s 0 0x42).h0.chain = none ∧
    (Turn (s 2 0x43).h0 2 0x43 ∧ (s 2 0x43).h0.sec.tampered = false) ∧ Turn (s 0 0x50).h0 0 0x50 ∧ sp6 0 ((s 0 0x50).h0.arg 0 1) = some (spAddr 6) := by
  decide

/-- A half that an owner holds, with an owner record of zeros. -/
def owned (x : Half) : Half := { x with sec := { x.sec with otp := { x.sec.otp with lcs := 2, owners := [zeros 160], owner := some 0 } } }

theorem test_witness_TheLifeCycleMovesByItsCommands :
    let s := fun l c => on fun x => asked 0 c (inLife l x)
    let chain := on fun x => asked 0 0x49 (signing x)
    let four := on fun x => asked 0 0x4A { inLife 1 x with sec := { (inLife 1 x).sec with otp := { (inLife 1 x).sec.otp with owners := List.replicate 4 [] } } }
    let lock := on fun x => asked 0 0x4C (owned (x.setReg Reg.secLockout 0x8000#32))
    (on id).h0.pci.held = [] ∧ (Turn (s 1 0x48).h0 0 0x48 ∧ (s 1 0x48).h0.lcs ≠ 0) ∧ (Turn (s 0 0x48).h0 0 0x48 ∧ (s 0 0x48).h0.lcs = 0 ∧
      sp6 0 128 = some (spAddr 6) ∧ sp6 0 96 = some (spAddr 6)) ∧ (Turn chain.h0 0 0x49 ∧ chain.h0.sec.otp.chain.isSome = true) ∧
    (Turn (s 1 0x49).h0 0 0x49 ∧ (s 1 0x49).h0.sec.otp.chain = none ∧ (s 1 0x49).h0.arg 0 1 ≤ 16384) ∧
    (Turn (s 2 0x4A).h0 0 0x4A ∧ (s 2 0x4A).h0.lcs ≠ 1) ∧ (Turn four.h0 0 0x4A ∧ four.h0.lcs = 1 ∧ 4 ≤ four.h0.sec.otp.owners.length) ∧
    (Turn (s 1 0x4A).h0 0 0x4A ∧ (s 1 0x4A).h0.sec.otp.owners.length < 4 ∧ sp6 0 160 = some (spAddr 6)) ∧ Turn (s 1 0x4B).h0 0 0x4B ∧
    (Turn (s 1 0x4C).h0 0 0x4C ∧ (s 1 0x4C).h0.lcs ≠ 2) ∧ (Turn lock.h0 0 0x4C ∧ lock.h0.lcs = 2 ∧ lock.h0.locked = true) ∧
    (Turn (s 2 0x4C).h0 0 0x4C ∧ (s 2 0x4C).h0.locked = false ∧ sp6 0 168 = some (spAddr 6) ∧ (s 2 0x4C).h0.tokenOk [] [] = false) ∧
    Turn (s 1 0x4D).h0 0 0x4D ∧ Turn (s 1 0x4E).h0 0 0x4E ∧ (Turn (s 4 0x4F).h0 0 0x4F ∧ (s 4 0x4F).h0.lcs = 4) ∧
    (Turn (s 1 0x4F).h0 0 0x4F ∧ (s 1 0x4F).h0.lcs ≠ 2 ∧ (s 1 0x4F).h0.lcs ≠ 4 ∧ (s 1 0x4F).h0.arg 0 0 ≠ 0x5C2A9D11) ∧
    (on fun x => x.setReg (Reg.stwMbxArg 0 0) 0x5C2A9D11#32).h0.arg 0 0 = 0x5C2A9D11 := by decide +kernel

/-- A token that asks half 0 for an action, with a nonce of zeros. -/
def token (act : Nat) : Bytes :=
  bytesOf [0x4C, 0x52, 0x4E, 0x54, 1, 0, 0, act] ++ zeros 8 ++ zeros 48 ++ zeros 8

/-- An owned half with a nonce of zeros. -/
def nonced (x : Half) : Half := { owned x with sec := { (owned x).sec with nonce := some (zeros 48), opt := zeros 128 } }

/-- Where the signature verifies, a token with the nonce and the serial of the half is accepted. -/
theorem test_witness_tokens_verify (sig : Bytes) (h : Config.ecdsaVerify ((zeros 160).take 96) (token 1) sig = true) :
    (on nonced).h0.tokenOk (token 1) sig = true := by
  have o : (on nonced).h0.ownerRec = some (zeros 160) := by decide +kernel
  have n : (on nonced).h0.sec.nonce = some (zeros 48) := rfl
  have p : ((leAt (token 1) 0 4 == 0x544E524C) && (leAt (token 1) 4 2 == 1) && (leAt (token 1) 6 1 == halfNum (on nonced).h0.self) &&
      ((token 1).drop 8).take 8 == (on nonced).h0.serial && ((token 1).drop 0x10).take 48 == zeros 48) = true := by decide +kernel
  simp only [Bool.and_eq_true] at p
  simp only [Half.tokenOk, o, n, h, p, Bool.and_self]

theorem test_witness_PasswordsOpenDebugByTheirDigest :
    let pw := fun o => on fun x => asked 0 0x4D ({ owned x with sec := { (owned x).sec with
      otp := { (owned x).sec.otp with owners := [o] } } }.setReg (Reg.stwMbxArg 0 1) 8#32)
    let o := zeros 144 ++ leBytes 4 1 ++ zeros 12
    Turn (pw o).h0 0 0x4D ∧ (pw o).h0.lcs = 2 ∧ (pw o).h0.ownerRec = some o ∧ sp6 ((pw o).h0.arg 0 0) ((pw o).h0.arg 0 1) = some (spAddr 6) ∧
    8 ≤ (pw o).h0.arg 0 1 ∧ (pw o).h0.arg 0 1 ≤ 64 ∧ (pw o).h0.locked = false ∧ (pw o).h0.fails < 32 ∧
    natBit (leAt o 144 4) 0 = true ∧ natBit (leAt (zeros 160) 144 4) 0 = false ∧ (pw (zeros 160)).h0.ownerRec = some (zeros 160) := by decide +kernel

theorem test_witness_TheSpdmResponderAnswers :
    (on id).h0.chain = none ∧ (1#8) ≠ 0#8 ∧ (on signing).h0.signs = true ∧ 9 < (10#8).toNat ∧ (10#8) ≠ 255#8 ∧
    (1 ≤ (9#8).toNat ∧ (9#8).toNat ≤ 9) ∧ (on id).h0.signs = false := by decide

/-- Debug is open with scope bit 0. -/
def debugOpen (x : Half) : Half := (x.setRBit Reg.secStatus 25 true).setRFld Reg.secStatus 20 4 1

theorem test_witness_TapInstructionsAct :
    (on id).h0.lcs ≠ 4 ∧ (on (inLife 4)).h0.lcs = 4 ∧ (on id).h0.tapPrivate = false ∧
    ((on debugOpen).h0.tapPrivate = true ∧ (on debugOpen).h0.inRun = false) ∧ (on id).h0.pins.extest = false := by decide

theorem test_witness_TamperClosesTheHalf :
    let s := (on id).both fun x => x.setReg Reg.secTamperCfg 0xF#32
    (Sensor.lid ∉ [Sensor.volt] ∧ ∀ i ∈ [Sensor.volt], (on fun x => x.setReg Reg.secTamperCfg 0#32).h0.rbit Reg.secTamperCfg (sensorBit i) = false) ∧
    (∃ i ∈ [Sensor.volt, Sensor.clk, Sensor.temp], s.h0.rbit Reg.secTamperCfg (sensorBit i) = true) ∧
    (Sensor.lid ∈ [Sensor.lid] ∧ s.h0.rbit Reg.secTamperCfg 3 = true ∧ s.h1.rbit Reg.secTamperCfg 3 = true) ∧ wbit 1#32 0 = true ∧
    Served s .h0 .stw ∧ Master.seq ≠ .stw := by decide

theorem test_witness_TamperZeroesTheSlotsUntilAReset :
    let t := on fun x => asked 2 0x43 { x with sec := { x.sec with tampered := true } }
    let m := on fun x => asked 2 0x40 x
    (t.h0.sec.tampered = true ∧ Turn t.h0 2 0x43) ∧ Turn m.h0 2 0x40 ∧ m.h0.arg 2 0 < 8 ∧ m.h0.msBytes (m.h0.arg 2 0) = zeros 48 ∧
    m.h0.reg (Reg.secMsCnt (m.h0.arg 2 0)) = 0#32 := by decide

theorem test_witness_StepsKeepMemoriesCanonical : State.reset.wf = true ∧ ∃ t, step State.reset = .next t := ⟨by decide, _, rfl⟩

theorem test_witness_StepRunsTheFrontCommand : State.reset.pending = [] := rfl

/-! ## Ill-formed commands are refused -/

theorem test_wellformed_accesses : ∀ i ∈ ([.registerWrite .h0 .stw 0x8FFFFFFC#40 (zeros 4), .registerWrite .h0 .stw 0x90000000#40 [],
    .memoryRead .h0 .stw 0xFFFFFFFFFF#40 2, .memoryRead .h0 .stw 0#40 0, .memoryWrite .h0 .stw 0#40 [],
    .bitSetAliasWrite .h0 .stw 0x8C800000#40 [], .bitClearAliasWrite .h0 .stw 0xFFFFFFFFFD#40 (zeros 4), .hbmPatrol .h0 0xFFFFFFFFF#40,
    .hbmPatrol .h0 0x1C00000000#40, .fabricHbmAccess .h0 true 0x1000000000#40 [], .fabricHbmAccess .h0 false 0#40 [],
    .fabricHbmAccess .h0 true 0x1000000000#40 (zeros 65), .hostRequest .h0 1#3 0#40 false 4 [], .hostRequest .h0 0#3 0#40 true 4 []] : List Instr),
    WellFormed i = false := by decide

theorem test_wellformed_bundles : ∀ i ∈ ([.bundleEnable .h0 .stw 12#4 0#32, .bundleLock .h0 12#4 [], .bundleAlign .h0 12#4, .bundleMeasureDone .h0 12#4,
    .bundleTimeout .h0 12#4, .bundleLaneLoss .h0 12#4 0#8, .bundleDownTimer .h0 12#4, .trainBlock .h0 12#4 (goodWire 0 0), .trainBlock .h0 0#4 ⟨[]⟩,
    .runBlock .h0 12#4 0#48 (goodWire 0 0), .runBlock .h0 0#4 0#48 ⟨[]⟩, .startBlock .h0 12#4 (goodWire 0 0), .abortBlock .h0 12#4 (goodWire 0 0),
    .idleBlock .h0 12#4 (goodWire 0 0), .startBlock .h0 0#4 ⟨[]⟩, .abortBlock .h0 0#4 ⟨[]⟩, .idleBlock .h0 0#4 ⟨[]⟩,
    .bundleLock .h0 0#4 (List.replicate 9 0#58), .dataPacket .h0 12#4 0#8 0#16 [0#8], .dataPacket .h0 0#4 0#8 0#16 [],
    .dataPacket .h0 0#4 0#8 0#16 (zeros 257), .ackPacket .h0 12#4 0#16, .nakPacket .h0 12#4 0#16, .creditPacket .h0 12#4 1#8 0#32,
    .creditPacket .h0 0#4 0#8 0#32, .creditRefresh .h0 12#4] : List Instr), WellFormed i = false := by decide +kernel

theorem test_wellformed_immediates : ∀ i ∈ ([.shli .h0 1#5 1#5 64#16, .shri .h0 1#5 1#5 64#16, .rdt .h0 1#5 16#16, .domen .h0 1#5 512#16,
    .even .h0 512#16, .evdis .h0 512#16, .evclr .h0 512#16, .evact .h0 2048#16, .arm .h0 1#5 1#5 256#16, .abrt .h0 1#5 256#16,
    .ckpt .h0 1#5 2#16, .sig .h0 1#5 256#16] : List Instr), WellFormed i = false := by decide

theorem test_wellformed_numbers : ∀ i ∈ ([.create .h0 0#6 (zeros 63), .fill .h0 0#6 (zeros 65), .sqAbort .h0 0#6 [], .laneEnable .h0 .stw 48#6 0#32,
    .cdrLock .h0 48#6, .laneSync .h0 48#6, .laneLoss .h0 48#6 true, .quadRateWrite .h0 .stw 12#4 0#32, .pllLock .h0 12#4 false, .linkUp .h0 0#4 1#4,
    .linkUp .h0 6#4 1#4, .ethFrameReceive .h0 ⟨[], true, ⟨0, 1000000000, 0⟩⟩, .ethFrameReceive .h0 ⟨zeros 9213, true, ⟨0, 0, 0⟩⟩,
    .sourceInvalid .h0 3#2, .sourceValid .h0 3#2, .resetRelease .h0 13#4, .challenge .h0 0#8 (zeros 31), .getMeasurements .h0 0#8 (zeros 31)] : List Instr),
    WellFormed i = false := by decide +kernel

theorem test_wellformed_times : ∀ t ∈ [(⟨0, 1000000000, 0⟩ : PtpTime)], ∀ m : PtpMsg, WellFormed (.sync .h0 m true t 0 ⟨0, 0, 0⟩) = false ∧
    WellFormed (.followUp .h0 m t 0) = false ∧ WellFormed (.delayResp .h0 m 0 t 0) = false := by
  intro t ht m
  simp only [List.mem_singleton] at ht
  subst ht
  exact ⟨rfl, rfl, rfl⟩

theorem test_wellformed_instances : ∀ c ∈ [Instr.mbxStatus, .hostEnable, .loadImage, .mailboxFallow, .wake, .halfReset, .readStop, .clearStop, .getMeas,
    .attest, .getCert, .extend, .provision, .certWrite, .takeOwnership, .getNonce, .ownerAction, .unlockPwd, .debugClose, .scrap, .fwStage],
    WellFormed (c .h0 3#2) = false := by decide

/-! ## Words of the sequencer, written out from R195 and R196 -/

theorem test_decode_sub : seqDecode .h0 0b00000000000001010010000011000010#32 = some (.sub .h0 3#5 4#5 5#5) := by decide

theorem test_decode_ori : seqDecode .h0 0b01000010010000000000100001010010#32 = some (.ori .h0 1#5 1#5 0x4240#16) := by decide

theorem test_decode_ld : seqDecode .h0 0b00000000000010000001000001011000#32 = some (.ld .h0 1#5 2#5 8#16) := by decide

theorem test_decode_bne : seqDecode .h0 0b11111111111111100001000001100001#32 = some (.bne .h0 1#5 2#5 0xFFFE#16) := by decide

theorem test_decode_call : seqDecode .h0 0b11111111111111111111111111100111#32 = some (.call .h0 31#5 0x1FFFFF#21) := by decide

theorem test_decode_runc : seqDecode .h0 0b00000000000000000000100010110001#32 = some (.runc .h0 2#5 1#5) := by decide

theorem test_decode_evact : seqDecode .h0 0b00000101000100010000000000111011#32 = some (.evact .h0 0x511#16) := by decide

theorem test_decode_arm : seqDecode .h0 0b00000000001000110001000001111100#32 = some (.arm .h0 1#5 2#5 0x23#16) := by decide

theorem test_decode_reserved : seqDecode .h0 0b00000000000000000000000000001100#32 = none := by decide

/-! ## One step at a time -/

/-- Half 0 after a command; the state before it where the command stops. -/
def after (s : State) : Host.Outcome State Fault Refusal → Half
  | .next t => t.h0
  | _ => s.h0

/-- An instruction whose second operand is its destination reads it before it is written (R196). -/
theorem test_sub_into_its_source :
    let s := about (.sub .h0 2#5 1#5 2#5) (fun x => (x.setW 1#5 5#64).setW 2#5 7#64)
    ((after s (execSub .h0 2#5 1#5 2#5 s)).w 2#5) = BitVec.ofNat 64 (2 ^ 64 - 2) := by decide

/-- The sign of a shifted negative number stays (R196). -/
theorem test_sra_keeps_the_sign :
    let s := about (.sra .h0 3#5 1#5 2#5) (fun x => (x.setW 1#5 0x8000000000000000#64).setW 2#5 63#64)
    ((after s (execSra .h0 3#5 1#5 2#5 s)).w 3#5) = BitVec.allOnes 64 := by decide

/-- A BP with f = 1 whatever its operands writes 1 to slot 5, and only there (R52, R61, R72). -/
theorem test_eval_sets_the_slot :
    let s := on fun x => { x with mem := wrBytes x.mem (palAddr 0 0 1) [0xFF#8, 0xFF#8] }
    let y := after s (execEval stepAt bpWord s)
    y.slot 0 5 = true ∧ y.slot 0 4 = false ∧ y.slot 1 5 = false := by decide

/-- CRC-32C of the nine digits (the check value of its standard, R97). -/
theorem test_crc : crc32c (bytesOf [0x31, 0x32, 0x33, 0x34, 0x35, 0x36, 0x37, 0x38, 0x39]) = 0xE3069283#32 := by decide +kernel

/-- A write beyond the map of R42 has no effect but its answer (R44). -/
theorem test_write_outside_the_map :
    let y := after (on id) (execMemoryWrite .h0 .stw 0x1C00000000#40 [1#8] (on id))
    y.mem = [] ∧ y.out = [.answer .stw 1#2 []] := by decide

end Sys2Proof.Tests
end

/-!
Accesses to registers (R15, R42 to R49): which of them the address map admits as one aligned word, what the commands make of an
access that it does not admit, and what they make of one that it does.
-/

namespace Sys2Proof.Machine

open Sys2Proof.Claims

/-! ## The address map -/

/-- The ranges of R42 lie one after the other. -/
theorem regionMap_sorted : regionMap.Pairwise (fun r q => r.2.1 ≤ q.1) := by decide

/-- An access of at least one byte lies in the range of its first byte. -/
theorem regionOf_one {a n : Nat} {r : Region} (hn : 0 < n) (h : regionOf a n = some r) : regionOf a 1 = some r := by
  obtain ⟨e, he, rfl⟩ := Option.map_eq_some_iff.mp h
  obtain ⟨hin, before, after, hmap, -⟩ := List.find?_eq_some_iff_append.mp he
  simp only [Bool.and_eq_true, decide_eq_true_eq] at hin
  refine Option.map_eq_some_iff.mpr
    ⟨e, List.find?_eq_some_iff_append.mpr ⟨?_, before, after, hmap, fun q hq => ?_⟩, rfl⟩
  · simp only [Bool.and_eq_true, decide_eq_true_eq]
    omega
  · have hle : q.2.1 ≤ e.1 :=
      (List.pairwise_append.mp (hmap ▸ regionMap_sorted)).2.2 q hq e List.mem_cons_self
    simp only [Bool.not_eq_true', Bool.and_eq_false_iff, decide_eq_false_iff_not]
    omega

/-- An access that begins at a register goes to that register or nowhere. -/
theorem placeOf_ctl {x : Half} {m : Master} {a n : Nat} {p : Place} (hc : regionOf a 1 = some .ctl)
    (h : x.placeOf m a n = some p) : p = ⟨.ctl, a, none⟩ := by
  unfold Half.placeOf at h
  split at h
  · cases h
  next r hr =>
    by_cases hn : n = 0
    · simp [hn] at h
    · obtain rfl : r = .ctl := Option.some.inj ((regionOf_one (Nat.pos_of_ne_zero hn) hr).symm.trans hc)
      obtain ⟨-, hp⟩ := Option.ite_none_left_eq_some.mp h
      exact (Option.some.inj hp).symm

/-- No access to a register of a width other than 4 bytes, or off a multiple of 4, is admitted (R15). -/
theorem permit_eq_none_of_not_aligned_word (x : Half) (m : Master) {a n : Nat} (hc : regionOf a 1 = some .ctl)
    (hn : n ≠ 4 ∨ a % 4 ≠ 0) : x.permit m a n = none := by
  refine Option.filter_eq_none_iff.mpr fun p hp => ?_
  rw [placeOf_ctl hc hp]
  simp only [formOk, Bool.and_eq_true, beq_iff_eq]
  omega

/-- An aligned word at a register is admitted to every master but the fabric (R15, R404). -/
theorem permit_register (x : Half) {m : Master} {a : Nat} (hm : m ≠ .afb) (hc : regionOf a 4 = some .ctl) (ha : a % 4 = 0)
    (hd : (regAt (a - 0x90000000)).isSome = true) : x.permit m a 4 = some ⟨.ctl, a, none⟩ := by
  simp [Half.permit, Half.placeOf, hc, hm, formOk, ha, hd]

/-! ## Masters that are served -/

theorem masterErr_eq_none (x : Half) {m : Master} (hh : m ≠ .host) (ha : m ≠ .afb) : x.masterErr m = none := by
  unfold Half.masterErr
  split
  · exact absurd rfl ha
  · exact absurd rfl hh
  · rfl

theorem ne_afb_of_served {s : State} {h : HalfId} {m : Master} (hs : Served s h m) : m ≠ .afb := by
  rintro rfl
  simp [Served, Half.masterErr] at hs

theorem portErr_of_served {s : State} {h : HalfId} {m : Master} (hs : Served s h m) (a : Nat) :
    (s.half h).portErr m a = none := by
  unfold Half.portErr
  split
  · exact hs
  · rfl

theorem issues_of_ne_afb (x : Half) {m : Master} (hm : m ≠ .afb) : x.issues m = true := by simp [Half.issues, hm]

theorem writeErr_of_ne_host (x : Half) {m : Master} {st : BitVec 2} (hh : m ≠ .host) :
    x.writeErr m st = { x with out := .answer m st [] :: x.out } := by simp [Half.writeErr, hh, Half.emit]

theorem readAns_of_ne_host (x : Half) {m : Master} {st : BitVec 2} {bs : Bytes} (hh : m ≠ .host) :
    x.readAns m st bs = { x with out := .answer m st bs :: x.out } := by simp [Half.readAns, hh, Half.emit]

/-! ## Access commands -/

/-- A read that the address map does not admit is answered with an unsupported request and zeros, and does nothing else. -/
theorem readCmd_of_permit_none {s : State} {h : HalfId} {m : Master} {a n : Nat} (hs : Served s h m)
    (hp : (s.half h).permit m a n = none) : s.readCmd h m a n = s.upd h (fun x => x.readAns m 1#2 (zeros n)) := by
  simp [State.readCmd, State.busRead, issues_of_ne_afb _ (ne_afb_of_served hs), portErr_of_served hs, hp, hostStatus]

/-- A write that the address map does not admit ends with an unsupported request and does nothing else. -/
theorem writeCmd_of_permit_none {s : State} {h : HalfId} {m : Master} {a : Nat} {bs : Bytes} (hs : Served s h m)
    (hp : (s.half h).permit m a bs.length = none) : s.writeCmd h m a bs = s.upd h (fun x => x.writeErr m 1#2) := by
  simp [State.writeCmd, State.busWrite, issues_of_ne_afb _ (ne_afb_of_served hs), portErr_of_served hs, hp, hostStatus]

/-- A master that is served reads the register's value where its block does not refuse the access. Its offset is
a variable of its own: on a difference of addresses the kernel would compute in unary. -/
theorem busRead_register {s : State} {h : HalfId} {m : Master} {a off : Nat} (ho : a - 0x90000000 = off) (hs : Served s h m)
    (hp : (s.half h).permit m a 4 = some ⟨.ctl, a, none⟩) (hr : (s.half h).regRefused m off none = false) :
    s.busRead h m a 4 = (0#2, leBytes 4 (s.regRead h off).1.toNat, (s.regRead h off).2) := by
  unfold State.busRead
  rw [ho]
  simp [portErr_of_served hs, hp, hr]

/-- A read of a register that its block does not refuse answers the register's value. -/
theorem readCmd_register {s : State} {h : HalfId} {m : Master} {a off : Nat} (ho : a - 0x90000000 = off) (hs : Served s h m)
    (hp : (s.half h).permit m a 4 = some ⟨.ctl, a, none⟩) (hr : (s.half h).regRefused m off none = false) :
    s.readCmd h m a 4 =
      (s.regRead h off).2.upd h (fun x => x.readAns m 0#2 (leBytes 4 (s.regRead h off).1.toNat)) := by
  simp [State.readCmd, issues_of_ne_afb _ (ne_afb_of_served hs), busRead_register ho hs hp hr, hostStatus]

/-- The little-endian bytes of a word give that word. -/
theorem ofNat_leNat_leBytes (v : Word) : BitVec.ofNat 32 (leNat (leBytes 4 v.toNat)) = v := by
  have hlt : v.toNat < 256 ^ 4 := v.isLt
  rw [leNat_leBytes, Nat.mod_eq_of_lt hlt, BitVec.ofNat_toNat, BitVec.setWidth_eq]

/-- A write of a register that its block does not refuse has the effect of that register's write, and no answer. -/
theorem writeCmd_register {s : State} {h : HalfId} {m : Master} {a off : Nat} {v : Word} (ho : a - 0x90000000 = off)
    (hs : Served s h m) (hp : (s.half h).permit m a 4 = some ⟨.ctl, a, none⟩)
    (hr : (s.half h).regRefused m off (some v) = false) :
    s.writeCmd h m a (leBytes 4 v.toNat) = s.regWrite h m off v := by
  simp [State.writeCmd, State.busWrite, issues_of_ne_afb _ (ne_afb_of_served hs), portErr_of_served hs, leBytes_length, hp, ho,
    hr, ofNat_leNat_leBytes]

/-- A command whose next state changes one half alone. -/
theorem onHalf_of_upd {c : Instr} {h : HalfId} {s : State} {P : Half → Prop} {f : Half → Half}
    (he : exec c s = .next (s.upd h f)) (hP : P (f (s.half h))) : OnHalf c h s P :=
  ⟨s.upd h f, he, by simp, by simp, by simpa using hP⟩

theorem exec_registerWrite (h : HalfId) (m : Master) (addr : BitVec 40) (data : Bytes) (s : State) :
    exec (.registerWrite h m addr data) s = .next (s.writeCmd h m addr.toNat data) := rfl

theorem exec_memoryRead (h : HalfId) (m : Master) (addr : BitVec 40) (len : Nat) (s : State) :
    exec (.memoryRead h m addr len) s = .next (s.readCmd h m addr.toNat len) := rfl

/-! ## Accesses that are no aligned word (R15) -/

theorem registerWrite_not_aligned_word {s : State} {h : HalfId} {m : Master} {addr : BitVec 40} {data : Bytes}
    (hs : Served s h m) (hc : regionOf addr.toNat 1 = some .ctl) (hn : data.length ≠ 4 ∨ addr.toNat % 4 ≠ 0) :
    OnHalf (.registerWrite h m addr data) h s (fun y => y = (s.half h).writeErr m 1#2) :=
  onHalf_of_upd
    ((exec_registerWrite ..).trans
      (congrArg _ (writeCmd_of_permit_none hs (permit_eq_none_of_not_aligned_word _ m hc hn)))) rfl

theorem memoryRead_not_aligned_word {s : State} {h : HalfId} {m : Master} {addr : BitVec 40} {len : Nat}
    (hs : Served s h m) (hc : regionOf addr.toNat 1 = some .ctl) (hn : len ≠ 4 ∨ addr.toNat % 4 ≠ 0) :
    OnHalf (.memoryRead h m addr len) h s (fun y => y = (s.half h).readAns m 1#2 (zeros len)) :=
  onHalf_of_upd
    ((exec_memoryRead ..).trans
      (congrArg _ (readCmd_of_permit_none hs (permit_eq_none_of_not_aligned_word _ m hc hn)))) rfl

/-! ## Registers -/

/-- A write of a register whose 32 bits are all read-write makes it hold the value (R17). -/
theorem plainWrite_of_all_rw (x : Half) {off : Nat} {d : RegDesc} (v : Word) (hd : regAt off = some d)
    (hrw : d.rw = 0xFFFFFFFF) (hc : d.w1c = 0) (hs : d.w1s = 0) (hl : d.rwl = 0) : x.plainWrite off v = x.setReg off v := by
  have hm (w : Word) : w &&& 0xFFFFFFFF#32 = w := BitVec.and_allOnes
  simp [Half.plainWrite, hd, regWritten, hrw, hc, hs, hl, hm]

theorem onlyRegs_setReg (x : Half) (off : Nat) (v : Word) : OnlyRegs [off] x (x.setReg off v) :=
  ⟨rfl, fun _ ho => reg_setReg_ne x v (List.ne_of_not_mem_cons ho)⟩

/-! ## `EDG_EXTGAP` (R214) -/

theorem regAt_edgExtgap :
    regAt Reg.edgExtgap = some ⟨Reg.edgExtgap, 1, 0, 1, 0, 0xFFFFFFFF, 0, 0, 0, 0x3E8, false⟩ := by decide

theorem regAt_edgStatus : regAt Reg.edgStatus = some ⟨Reg.edgStatus, 1, 0, 1, 0, 0, 0, 0, 0, 0, false⟩ := by decide

theorem edgExtgap_block : Reg.edgExtgap / 0x100000 = 6 := rfl
theorem edgExtgap_offset : Reg.edgExtgap % 0x100000 = 4 := rfl

theorem permit_edgExtgap (x : Half) {m : Master} (hm : m ≠ .afb) :
    x.permit m 0x90600004 4 = some ⟨.ctl, 0x90600004, none⟩ :=
  permit_register x hm (by decide) (by decide) (by decide)

theorem regRefused_edgExtgap (x : Half) (m : Master) (v : Option Word) : x.regRefused m Reg.edgExtgap v = false := by
  simp [Half.regRefused, edgExtgap_block, edgExtgap_offset]

/-- `EDG_EXTGAP` shows no structured state. -/
theorem viewReg_edgExtgap (s : State) (h : HalfId) : s.viewReg h Reg.edgExtgap = none := by
  have hstatus : Reg.edgExtgap ≠ Reg.edgStatus := by decide
  have hlo : Reg.edgExtgap ≠ Reg.edgNextvtLo := by decide
  have hhi : Reg.edgExtgap ≠ Reg.edgNextvtHi := by decide
  have hdesc : ¬ (0x1000 ≤ 4 ∧ 4 < 0x2000 ∧ 4 % 0x20 = 0x14) := by decide
  simp only [State.viewReg, edgExtgap_block, edgExtgap_offset, if_neg hstatus, if_neg hlo, if_neg hhi, if_neg hdesc]

/-- A read of `EDG_EXTGAP` returns what it holds, and latches nothing. -/
theorem regRead_edgExtgap (s : State) (h : HalfId) : s.regRead h Reg.edgExtgap = ((s.half h).reg Reg.edgExtgap, s) := by
  have hprev : Reg.edgExtgap - 4 = Reg.edgStatus := rfl
  have htime : Reg.edgExtgap ≠ Reg.ptmTime 0 := by decide
  have htxts : Reg.edgExtgap ≠ Reg.ptmTxtsId := by decide
  have hcap0 : Reg.edgExtgap ≠ Reg.ptmTcapId 0 := by decide
  have hcap1 : Reg.edgExtgap ≠ Reg.ptmTcapId 1 := by decide
  simp only [State.regRead, State.regValue, if_neg htime, if_neg htxts, if_neg hcap0, if_neg hcap1, regAt_edgExtgap, hprev,
    regAt_edgStatus, viewReg_edgExtgap, Bool.false_and, Bool.false_eq_true, if_false, Option.getD_none]

/-- Outside a run a write of `EDG_EXTGAP` makes it hold the value. -/
theorem regWrite_edgExtgap {s : State} {h : HalfId} (m : Master) (v : Word) (hr : (s.half h).inRun = false) :
    s.regWrite h m Reg.edgExtgap v = s.upd h (fun x => x.setReg Reg.edgExtgap v) := by
  have hw : (fun x : Half => x.plainWrite Reg.edgExtgap v) = fun x => x.setReg Reg.edgExtgap v :=
    funext fun x => plainWrite_of_all_rw x v regAt_edgExtgap rfl rfl rfl rfl
  simp [State.regWrite, hr, hw, edgExtgap_block, edgExtgap_offset]

theorem memoryRead_edgExtgap (s : State) (h : HalfId) :
    OnHalf (.memoryRead h .stw 0x90600004#40 4) h s (fun y => y =
      { s.half h with out := .answer .stw 0#2 (leBytes 4 ((s.half h).reg Reg.edgExtgap).toNat) :: (s.half h).out }) := by
  have hread := readCmd_register (s := s) (h := h) (m := .stw) rfl rfl (permit_edgExtgap _ (by decide))
    (regRefused_edgExtgap _ _ none)
  rw [regRead_edgExtgap] at hread
  exact onHalf_of_upd ((exec_memoryRead ..).trans (congrArg _ hread)) rfl

theorem registerWrite_edgExtgap {s : State} {h : HalfId} (v : Word) (hr : (s.half h).inRun = false) :
    OnHalf (.registerWrite h .stw 0x90600004#40 (leBytes 4 v.toNat)) h s (fun y =>
      y.reg Reg.edgExtgap = v ∧ OnlyRegs [Reg.edgExtgap] (s.half h) y) := by
  have hwrite := writeCmd_register (s := s) (h := h) (m := .stw) (v := v) rfl rfl (permit_edgExtgap _ (by decide))
    (regRefused_edgExtgap _ _ (some v))
  rw [regWrite_edgExtgap .stw v hr] at hwrite
  exact onHalf_of_upd ((exec_registerWrite ..).trans (congrArg _ hwrite)) ⟨reg_setReg .., onlyRegs_setReg ..⟩

end Sys2Proof.Machine

namespace Sys2Proof.Claims

open Sys2Proof.Machine

/-- Settles O1: the address map admits no access to a register but an aligned word, and answers every other one as an
unsupported request before any register is reached. -/
theorem registersAreAlignedWords : Obligations.RegistersAreAlignedWords := by
  intro h m addr len data v s
  refine ⟨memoryRead_edgExtgap s h, registerWrite_edgExtgap v, fun hc hh ha => ?_, fun hc hs => ⟨?_, ?_⟩⟩
  · have hs : Served s h m := masterErr_eq_none _ hh ha
    rw [← writeErr_of_ne_host _ hh, ← readAns_of_ne_host _ hh]
    exact ⟨registerWrite_not_aligned_word hs hc, memoryRead_not_aligned_word hs hc⟩
  · exact registerWrite_not_aligned_word hs hc
  · exact memoryRead_not_aligned_word hs hc

end Sys2Proof.Claims

/-!
Unreadable instruction words and palette entries (R85, R92 to R94): what a fault of the array records, what a step of a Boolean
processor comes to when its word or its palette entry cannot be read, and what that step leaves unchanged.
-/

namespace Sys2Proof.Machine

open Sys2Proof.Claims

/-! ## Faults of the array (R85)

A fault is noted in the registers, then raised. The two halves of it are definitions of their own, so that facts about raising
it speak of any half: on the register offsets inside a noted one the kernel would compute in unary. -/

/-- The half once a fault is counted in `BPA_STATUS` and, if it is the first since FAULT was cleared, described. -/
def Half.noteBpFault (x : Half) (g pos cause field : Nat) : Half :=
  let n := g / 1024
  let y := x.countFld (Reg.bpaStatus n) 16 16 1
  if y.rbit (Reg.bpaStatus n) 0 then y
  else
    (((y.setRBit (Reg.bpaStatus n) 0 true).setRFld (Reg.bpaStatus n) 4 4 cause).setReg (Reg.bpaFaultLoc n)
      (BitVec.ofNat 32 (g / 64 % 16 * 2 ^ 20 + g % 64 * 2 ^ 14 + field * 2 ^ 12 + pos))).setReg64
        (Reg.bpaFaultCycLo n) (Reg.bpaFaultCycHi n) x.run.cyc.toNat

/-- The half once a noted fault is on its way to the sequencer, or to assured operation. -/
def Half.raiseBpFault (x : Half) (cause : Nat) : Half :=
  let w := { x with ar := { x.ar with bpFault := true } }
  if cause = 3 ∨ cause = 4 then w.recoverable else w

theorem bpFault_eq (x : Half) (g pos cause field : Nat) :
    x.bpFault g pos cause field = (x.noteBpFault g pos cause field).raiseBpFault cause := rfl

theorem noteBpFault_reports (x : Half) (g pos cause field : Nat) : x.Reports (x.noteBpFault g pos cause field) := by
  have hcount := countFld_reports x (Reg.bpaStatus (g / 1024)) 16 16 1
  unfold Half.noteBpFault
  dsimp only
  split
  · exact hcount
  · exact (((hcount.trans (setRBit_reports ..)).trans (setRFld_reports ..)).trans (setReg_reports ..)).trans
      (setReg64_reports ..)

/-- Assured operation takes a recoverable fault in the run's state alone. -/
theorem recoverable_keeps (x : Half) : x.Keeps x.recoverable ∧ x.recoverable.regs = x.regs := by
  unfold Half.recoverable
  split
  · exact ⟨halfFault_keeps x, rfl⟩
  · exact ⟨.refl x, rfl⟩

theorem raiseBpFault_frame (x : Half) (cause : Nat) :
    (x.raiseBpFault cause).mem = x.mem ∧ (x.raiseBpFault cause).ar = { x.ar with bpFault := true } ∧
      (x.raiseBpFault cause).regs = x.regs := by
  unfold Half.raiseBpFault
  dsimp only
  split
  · obtain ⟨hkeeps, hregs⟩ := recoverable_keeps { x with ar := { x.ar with bpFault := true } }
    exact ⟨hkeeps.mem, hkeeps.ar, hregs⟩
  · exact ⟨rfl, rfl, rfl⟩

theorem bpFault_mem (x : Half) (g pos cause field : Nat) : (x.bpFault g pos cause field).mem = x.mem :=
  (raiseBpFault_frame ..).1.trans (noteBpFault_reports ..).mem

theorem bpFault_ar (x : Half) (g pos cause field : Nat) :
    (x.bpFault g pos cause field).ar = { x.ar with bpFault := true } := by
  rw [bpFault_eq, (raiseBpFault_frame ..).2.1, (noteBpFault_reports ..).ar]

theorem bpFault_reg (x : Half) (g pos cause field off : Nat) :
    (x.bpFault g pos cause field).reg off = (x.noteBpFault g pos cause field).reg off := by
  rw [bpFault_eq, Half.reg, (raiseBpFault_frame ..).2.2, Half.reg]

theorem reg_setReg64_ne (x : Half) {a lo hi : Nat} (v : Nat) (hlo : a ≠ lo) (hhi : a ≠ hi) :
    (x.setReg64 lo hi v).reg a = x.reg a :=
  (reg_setReg_ne _ _ hhi).trans (reg_setReg_ne _ _ hlo)

/-- Counting a fault leaves FAULT as it was. -/
theorem rbit_countFld_fault (x : Half) (off : Nat) : (x.countFld off 16 16 1).rbit off 0 = x.rbit off 0 := by
  simp only [Half.rbit, Half.countFld, reg_setRFld, wbit_setFld _ _ _ _ _ (show 0 < 32 by omega),
    if_neg (show ¬ (16 ≤ 0 ∧ 0 < 16 + 16) by omega)]

/-- Where FAULT stands, a further fault is counted and nothing else. -/
theorem noteBpFault_of_fault {x : Half} {g : Nat} (pos cause field : Nat) (h : x.rbit (Reg.bpaStatus (g / 1024)) 0 = true) :
    x.noteBpFault g pos cause field = x.countFld (Reg.bpaStatus (g / 1024)) 16 16 1 :=
  if_pos ((rbit_countFld_fault ..).trans h)

/-- The first fault since FAULT was cleared sets FAULT and CAUSE. -/
theorem noteBpFault_reg_of_no_fault {x : Half} {g : Nat} (pos cause field : Nat)
    (h : x.rbit (Reg.bpaStatus (g / 1024)) 0 = false) :
    (x.noteBpFault g pos cause field).reg (Reg.bpaStatus (g / 1024)) =
      setFld (setFld ((x.countFld (Reg.bpaStatus (g / 1024)) 16 16 1).reg (Reg.bpaStatus (g / 1024))) 0 1 1) 4 4 cause := by
  have hfault := (rbit_countFld_fault ..).trans h
  have hloc : Reg.bpaStatus (g / 1024) ≠ Reg.bpaFaultLoc (g / 1024) := by simp only [Reg.bpaStatus, Reg.bpaFaultLoc]; omega
  have hlo : Reg.bpaStatus (g / 1024) ≠ Reg.bpaFaultCycLo (g / 1024) := by simp only [Reg.bpaStatus, Reg.bpaFaultCycLo]; omega
  have hhi : Reg.bpaStatus (g / 1024) ≠ Reg.bpaFaultCycHi (g / 1024) := by simp only [Reg.bpaStatus, Reg.bpaFaultCycHi]; omega
  unfold Half.noteBpFault
  dsimp only
  rw [if_neg (ne_true_of_eq_false hfault), reg_setReg64_ne _ _ hlo hhi, reg_setReg_ne _ _ hloc, reg_setRFld, Half.setRBit,
    reg_setRFld]
  rfl

/-- `y` shows a fault of the array of tile `n` after `x`: FAULT stands, with `cause` for its CAUSE unless an earlier one keeps
its own (R85), and event 256 is due. -/
def ShowsBpFault (n cause : Nat) (x y : Half) : Prop :=
  y.rbit (Reg.bpaStatus n) 0 = true ∧
  (x.rbit (Reg.bpaStatus n) 0 = false → y.rfld (Reg.bpaStatus n) 4 4 = cause) ∧ y.ar.bpFault = true

theorem bpFault_shows (x : Half) (g pos field : Nat) {cause : Nat} (hc : cause < 16) :
    ShowsBpFault (g / 1024) cause x (x.bpFault g pos cause field) := by
  refine ⟨?_, fun h => ?_, by rw [bpFault_ar]⟩
  · rw [Half.rbit, bpFault_reg]
    by_cases h : x.rbit (Reg.bpaStatus (g / 1024)) 0 = true
    · rw [noteBpFault_of_fault pos cause field h]
      exact (rbit_countFld_fault ..).trans h
    · rw [noteBpFault_reg_of_no_fault pos cause field (eq_false_of_ne_true h), wbit_setFld _ _ _ _ _ (by omega),
        if_neg (by omega), wbit_setFld _ _ _ _ _ (by omega), if_pos (by omega)]
      decide
  · rw [Half.rfld, bpFault_reg, noteBpFault_reg_of_no_fault pos cause field h, fld_setFld _ _ _ _ (by omega)]
    exact Nat.mod_eq_of_lt hc

/-- The trigger lines and the assertion events are as they were. -/
def SameLines (x y : Half) : Prop := y.ar.trig = x.ar.trig ∧ y.ar.asrt = x.ar.asrt

theorem bpFault_sameLines (x : Half) (g pos cause field : Nat) : SameLines x (x.bpFault g pos cause field) := by
  simp only [SameLines, bpFault_ar, and_self]

/-! ## Steps of a Boolean processor -/

/-- A word with an uncorrectable error is judged by nothing it stores: the step is the fault INSTR_UNCORR (R92). -/
theorem bpStep_of_unreadable_word {x : Half} {w : BpWord} {pos : Nat} (t : Nat) (first : Bool) (op : BpOp)
    (hu : x.unserved w.bp.toNat = false) (hw : x.eccAt (bpWordAddr w.bp.toNat pos) = some true) :
    x.bpStep t first pos op w = x.bpFault w.bp.toNat pos 3 0 := by
  simp [Half.bpStep, hu, hw]

/-- A readable word of a served BP, of an opcode that evaluates, is evaluated (R61). -/
theorem bpStep_of_readable_word {x : Half} {w : BpWord} {pos : Nat} (t : Nat) (first : Bool) {op : BpOp}
    (hu : x.unserved w.bp.toNat = false) (hw : x.eccAt (bpWordAddr w.bp.toNat pos) = none)
    (hnop : op ≠ .nop) (hrsvd : op ≠ .reserved) : x.bpStep t first pos op w = x.evaluate t first pos op w := by
  cases op <;> simp_all [Half.bpStep]

/-- An instruction that uses a palette entry with an uncorrectable error writes 0, with the fault PAL_UNCORR (R93). -/
theorem evaluate_of_unreadable_entry {x : Half} {w : BpWord} {t pos : Nat} {first : Bool} {op : BpOp}
    (hr : firstReserved w = none) (he : x.eccAt (palAddr (w.bp.toNat / 1024) (w.bp.toNat / 64 % 16) w.fn.toNat) = some true)
    (huse : op = .evalc → x.operand t first pos w.bp.toNat w.d = true) :
    x.evaluate t first pos op w = (x.writeResult t w.bp.toNat pos false).bpFault w.bp.toNat pos 4 0 := by
  have hcond : (op == .evalc && !x.operand t first pos w.bp.toNat w.d) = false := by
    by_cases h : op = .evalc
    · simp [huse h]
    · simp [h]
  simp [Half.evaluate, hr, he, hcond]

/-- An EVALC with d = 0 uses no palette entry (R73, R93). -/
theorem evaluate_evalc_of_false {x : Half} {w : BpWord} {t pos : Nat} {first : Bool} (hr : firstReserved w = none)
    (hd : x.operand t first pos w.bp.toNat w.d = false) : x.evaluate t first pos .evalc w = x := by
  simp [Half.evaluate, hr, hd]

/-! ## Slots -/

/-- Writing a slot leaves every other slot of the half as it was. -/
theorem slot_setSlot_other (x : Half) {g s g' s' : Nat} (v : Bool) (hs : s < 4096) (hs' : s' < 4096) (h : (g, s) ≠ (g', s')) :
    (x.setSlot g' s' v).slot g s = x.slot g s := by
  by_cases hg : g = g'
  · subst hg
    exact slot_setSlot_ne x g v fun he => h (he ▸ rfl)
  · have haddr : slotAddr g s ≠ slotAddr g' s' := by simp only [slotAddr]; omega
    simp only [Half.slot, Half.setSlot, rdByte_wrByte_ne _ _ haddr]

theorem slot_bpFault (x : Half) (g pos cause field g' s : Nat) :
    (x.bpFault g pos cause field).slot g' s = x.slot g' s := by
  simp only [Half.slot, bpFault_mem]

theorem slot_writeResult_same (x : Half) (t g pos : Nat) (v : Bool) : (x.writeResult t g pos v).slot g pos = v :=
  slot_setSlot ..

theorem slot_writeResult_other (x : Half) {g s g' pos : Nat} (t : Nat) (v : Bool) (hs : s < 4096) (hpos : pos < 4096)
    (h : (g, s) ≠ (g', pos)) : (x.writeResult t g' pos v).slot g s = x.slot g s :=
  slot_setSlot_other _ v hs hpos h

/-! ## The commands -/

section Commands

variable {x : StepAt} {w : BpWord} {s : State} {P : Half → Prop}

theorem onHalf_bpNop {bp : BitVec 16}
    (h : P ((s.half x.half).bpStep x.time x.first x.pos.toNat .nop ⟨bp, 0#8, 0#13, 0#13, 0#13, 0#13⟩)) :
    OnHalf (.bpNop x bp) x.half s P := onHalf_of_upd rfl h

theorem onHalf_eval (h : P ((s.half x.half).bpStep x.time x.first x.pos.toNat .eval w)) : OnHalf (.eval x w) x.half s P :=
  onHalf_of_upd rfl h

theorem onHalf_evalc (h : P ((s.half x.half).bpStep x.time x.first x.pos.toNat .evalc w)) : OnHalf (.evalc x w) x.half s P :=
  onHalf_of_upd rfl h

theorem onHalf_trig (h : P ((s.half x.half).bpStep x.time x.first x.pos.toNat .trig w)) : OnHalf (.trig x w) x.half s P :=
  onHalf_of_upd rfl h

theorem onHalf_bpAssert (h : P ((s.half x.half).bpStep x.time x.first x.pos.toNat .assert_ w)) :
    OnHalf (.bpAssert x w) x.half s P := onHalf_of_upd rfl h

end Commands

end Sys2Proof.Machine

namespace Sys2Proof.Claims

open Sys2Proof.Machine

/-- What a step leaves whose instruction word cannot be read: memory and lines as they were, and a fault INSTR_UNCORR (R92). -/
def ActsAsUnreadableWord (g : Nat) (x y : Half) : Prop := y.mem = x.mem ∧ SameLines x y ∧ ShowsBpFault (g / 1024) 3 x y

/-- What a step leaves whose palette entry cannot be read: 0 in its slot, every other slot and the lines as they were, and a
fault PAL_UNCORR (R93, R94). -/
def ActsAsUnreadableEntry (g pos : Nat) (x y : Half) : Prop :=
  y.slot g pos = false ∧ SameLines x y ∧ ShowsBpFault (g / 1024) 4 x y ∧
    ∀ g' p, p < 4096 → (g', p) ≠ (g, pos) → y.slot g' p = x.slot g' p

theorem bpStep_acts_as_unreadable_word {x : Half} {w : BpWord} {pos : Nat} (t : Nat) (first : Bool) (op : BpOp)
    (hu : x.unserved w.bp.toNat = false) (hw : x.eccAt (bpWordAddr w.bp.toNat pos) = some true) :
    ActsAsUnreadableWord w.bp.toNat x (x.bpStep t first pos op w) := by
  rw [bpStep_of_unreadable_word t first op hu hw]
  exact ⟨bpFault_mem .., bpFault_sameLines .., bpFault_shows _ _ _ _ (by omega)⟩

theorem writeResult_bpFault_acts_as_unreadable_entry (x : Half) {g pos : Nat} (t : Nat) (hpos : pos < 4096) :
    ActsAsUnreadableEntry g pos x ((x.writeResult t g pos false).bpFault g pos 4 0) := by
  refine ⟨?_, bpFault_sameLines (x.writeResult t g pos false) .., bpFault_shows (x.writeResult t g pos false) _ _ _ (by omega),
    fun g' p hp hne => ?_⟩
  · rw [slot_bpFault, slot_writeResult_same]
  · rw [slot_bpFault, slot_writeResult_other x t false hp hpos hne]

/-- A step that uses a palette entry with an uncorrectable error, its word readable. -/
theorem bpStep_acts_as_unreadable_entry {x : Half} {w : BpWord} {t pos : Nat} {first : Bool} {op : BpOp}
    (hu : x.unserved w.bp.toNat = false) (hw : x.eccAt (bpWordAddr w.bp.toNat pos) = none) (hr : firstReserved w = none)
    (he : x.eccAt (palAddr (w.bp.toNat / 1024) (w.bp.toNat / 64 % 16) w.fn.toNat) = some true) (hpos : pos < 4096)
    (hnop : op ≠ .nop) (hrsvd : op ≠ .reserved) (huse : op = .evalc → x.operand t first pos w.bp.toNat w.d = true) :
    ActsAsUnreadableEntry w.bp.toNat pos x (x.bpStep t first pos op w) := by
  rw [bpStep_of_readable_word t first hu hw hnop hrsvd, evaluate_of_unreadable_entry hr he huse]
  exact writeResult_bpFault_acts_as_unreadable_entry x t hpos

/-- Settles O2: an unreadable word makes every step the one fault INSTR_UNCORR, and an unreadable entry makes a step that uses
it write 0 with PAL_UNCORR; neither reaches the lines. -/
theorem unreadableWordsAndEntriesFault : Obligations.UnreadableWordsAndEntriesFault := by
  intro x w s b n cause quiet bad zero hu
  refine ⟨fun hw => ?_, fun hw hr he => ?_⟩
  · have hbad : ∀ op, bad (b.bpStep x.time x.first x.pos.toNat op w) := fun op => bpStep_acts_as_unreadable_word _ _ op hu hw
    have hnop : bad (b.bpStep x.time x.first x.pos.toNat .nop ⟨w.bp, 0#8, 0#13, 0#13, 0#13, 0#13⟩) :=
      bpStep_acts_as_unreadable_word (w := ⟨w.bp, 0#8, 0#13, 0#13, 0#13, 0#13⟩) _ _ .nop hu hw
    exact ⟨onHalf_bpNop hnop, onHalf_eval (hbad _), onHalf_evalc (hbad _), onHalf_trig (hbad _), onHalf_bpAssert (hbad _)⟩
  · have hzero : ∀ op, op ≠ .nop → op ≠ .reserved → (op = .evalc → val s x w w.d = true) →
        zero (b.bpStep x.time x.first x.pos.toNat op w) := fun _ hnop hrsvd huse =>
      bpStep_acts_as_unreadable_entry hu hw hr he x.pos.isLt hnop hrsvd huse
    refine ⟨onHalf_eval (hzero _ nofun nofun nofun), onHalf_trig (hzero _ nofun nofun nofun),
      onHalf_bpAssert (hzero _ nofun nofun nofun), fun hd => onHalf_evalc (hzero _ nofun nofun fun _ => hd),
      fun hd => onHalf_evalc ?_⟩
    exact (bpStep_of_readable_word (op := .evalc) _ _ hu hw nofun nofun).trans (evaluate_evalc_of_false hr hd)

end Sys2Proof.Claims

/-!
TAMPER and the measurement slots (R577 to R580, R601): the end of a mailbox command (R566), the registers of the slots, and what
TAMPER, a digest, a report and a reset of reach Module make of them.
-/

namespace Sys2Proof.Machine

open Sys2Proof.Claims

/-! ## Folds over registers -/

/-- What one step of a fold establishes and every step keeps holds at its end. -/
theorem foldl_establishes {α β : Type} {P : β → Prop} {f : β → α → β} {l : List α} {a : α} (ha : a ∈ l)
    (hset : ∀ b, P (f b a)) (hkeep : ∀ b, P b → ∀ c ∈ l, P (f b c)) (b : β) : P (l.foldl f b) := by
  obtain ⟨before, after, rfl⟩ := List.append_of_mem ha
  rw [List.foldl_append, List.foldl_cons]
  exact List.foldlRecOn after f (hset _) fun b hb c hc => hkeep b hb c (by simp [hc])

/-- A register that a write leaves at `v`, as it was written with `v` or held it before. -/
theorem reg_setReg_of_imp {x : Half} {a b : Nat} {v w : Word} (h : a ≠ b → x.reg a = v) (hw : a = b → w = v) :
    (x.setReg b w).reg a = v := by
  by_cases hab : a = b
  · rw [← hab, reg_setReg, hw hab]
  · rw [reg_setReg_ne x w hab, h hab]

/-! ## The end of a mailbox command (R566) -/

/-- The status register at `off` as an ended command leaves it: RESULT, BUSY 0, DONE 1. -/
def Half.mbxStatus (x : Half) (off result : Nat) : Half := ((x.setRFld off 8 8 result).setRBit off 0 false).setRBit off 1 true

theorem mbxStatus_reg (x : Half) (off result : Nat) :
    (x.mbxStatus off result).reg off = setFld (setFld (setFld (x.reg off) 8 8 result) 0 1 0) 1 1 1 := by
  simp only [Half.mbxStatus, Half.setRBit, reg_setRFld, bitNat, Bool.false_eq_true, if_true, if_false]

theorem mbxStatus_reg_ne (x : Half) {a off : Nat} (result : Nat) (h : a ≠ off) : (x.mbxStatus off result).reg a = x.reg a :=
  (reg_setRBit_ne _ _ _ h).trans ((reg_setRBit_ne _ _ _ h).trans (reg_setRFld_ne _ _ _ _ h))

theorem mbxStatus_ended (x : Half) (off : Nat) {result : Nat} (hr : result < 256) :
    (x.mbxStatus off result).rbit off 0 = false ∧ (x.mbxStatus off result).rbit off 1 = true ∧
      (x.mbxStatus off result).rfld off 8 8 = result := by
  refine ⟨?_, ?_, ?_⟩
  · rw [Half.mbxStatus, rbit_setRBit_ne _ _ _ (by omega) (by omega), rbit_setRBit _ _ _ _ (by omega)]
  · exact rbit_setRBit _ _ _ _ (by omega)
  · rw [Half.rfld, mbxStatus_reg, fld_setFld_disjoint _ _ _ _ _ _ (by omega) (by omega),
      fld_setFld_disjoint _ _ _ _ _ _ (by omega) (by omega), fld_setFld _ _ _ _ (by omega)]
    exact Nat.mod_eq_of_lt hr

/-- The half with the words of a command's response. -/
def Half.mbxRsp (x : Half) (k : Nat) (rsp : List (Nat × Nat)) : Half :=
  rsp.foldl (fun y (e : Nat × Nat) => y.setReg (Reg.stwMbxRsp k e.1) (BitVec.ofNat 32 e.2)) x

/-- The half once a mailbox command has its response and its result, before the message that says so. -/
def Half.mbxAnswered (x : Half) (k result : Nat) (rsp : List (Nat × Nat)) : Half :=
  let y := (x.mbxRsp k rsp).mbxStatus (Reg.stwMbxStat k) result
  { y with sys := { y.sys with mbx := y.sys.mbx.filter (fun i => i != k) } }

/-- The end of a command is its answer and at most one message. -/
theorem mbxDone_sends (x : Half) (k result : Nat) (rsp : List (Nat × Nat)) :
    (x.mbxAnswered k result rsp).Sends (x.mbxDone k result rsp) := by
  unfold Half.mbxDone
  dsimp only
  split
  · exact msixNow_sends (x.mbxAnswered k result rsp) _
  · exact .refl _

theorem mbxDone_reg (x : Half) (k result : Nat) (rsp : List (Nat × Nat)) (off : Nat) :
    (x.mbxDone k result rsp).reg off = ((x.mbxRsp k rsp).mbxStatus (Reg.stwMbxStat k) result).reg off := by
  rw [Half.reg, (mbxDone_sends ..).regs]
  rfl

theorem mbxRsp_sec (x : Half) (k : Nat) (rsp : List (Nat × Nat)) : (x.mbxRsp k rsp).sec = x.sec :=
  List.foldlRecOn (motive := fun y : Half => y.sec = x.sec) rsp _ rfl fun _ hy _ _ => hy

@[simp] theorem mbxDone_sec (x : Half) (k result : Nat) (rsp : List (Nat × Nat)) : (x.mbxDone k result rsp).sec = x.sec :=
  (mbxDone_sends ..).sec.trans (mbxRsp_sec ..)

theorem mbxDone_ended (x : Half) (k : Nat) {result : Nat} (rsp : List (Nat × Nat)) (hr : result < 256) :
    Ended k result (x.mbxDone k result rsp) := by
  obtain ⟨hbusy, hdone, hresult⟩ := mbxStatus_ended (x.mbxRsp k rsp) (Reg.stwMbxStat k) hr
  refine ⟨?_, ?_, ?_, ?_⟩
  · rwa [Half.rbit, mbxDone_reg]
  · rwa [Half.rbit, mbxDone_reg]
  · rwa [Half.rfld, mbxDone_reg]
  · rw [(mbxDone_sends ..).sys]
    simp [Half.mbxAnswered]

/-- A command that ends without a response leaves every register but its status. -/
theorem mbxDone_nil_reg (x : Half) {k off : Nat} (result : Nat) (h : off ≠ Reg.stwMbxStat k) :
    (x.mbxDone k result []).reg off = x.reg off :=
  (mbxDone_reg ..).trans (mbxStatus_reg_ne _ _ h)

theorem stwMbxRsp_ne_stwMbxStat (k w : Nat) : Reg.stwMbxRsp k w ≠ Reg.stwMbxStat k := by
  simp only [Reg.stwMbxRsp, Reg.stwMbxStat]
  omega

/-- Where every word of a response is 0, the registers it names hold 0. -/
theorem mbxDone_rsp_zero (x : Half) {k w : Nat} (result : Nat) {rsp : List (Nat × Nat)} (hw : (w, 0) ∈ rsp)
    (hz : ∀ e ∈ rsp, e.2 = 0) : (x.mbxDone k result rsp).reg (Reg.stwMbxRsp k w) = 0#32 := by
  rw [mbxDone_reg, mbxStatus_reg_ne _ _ (stwMbxRsp_ne_stwMbxStat k w)]
  exact foldl_establishes (P := fun y : Half => y.reg (Reg.stwMbxRsp k w) = 0#32) hw (fun y => reg_setReg ..)
    (fun y hy e he => reg_setReg_of_imp (fun _ => hy) fun _ => by rw [hz e he]) x

/-! ## A mailbox command in its turn (R565, R585) -/

theorem lt_three_of_turn {x : Half} {k code : Nat} (h : Turn x k code) : k < 3 := by
  simp only [Turn, Half.mbxTurn, Bool.and_eq_true, decide_eq_true_eq] at h
  obtain ⟨⟨⟨⟨hk, -⟩, -⟩, -⟩, -⟩ := h
  exact hk

theorem mbx_of_turn {x : Half} {k code n : Nat} (f : Half → Half) (h : Turn x k code) (hk : k < n) :
    x.mbx k code n f = f x :=
  (if_pos h).trans (if_pos hk)

/-- What a mailbox command does that is accepted and has its turn. -/
theorem onHalf_of_turn {c : Instr} {h : HalfId} {s : State} {k code n : Nat} {f : Half → Half} {P : Half → Prop}
    (he : exec c s = .next (s.upd h (fun x => x.mbx k code n f))) (ht : Turn (s.half h) k code) (hk : k < n)
    (hP : P (f (s.half h))) : OnHalf c h s P :=
  onHalf_of_upd he (by rwa [mbx_of_turn f ht hk])

/-! ## Measurement slots (R577, R580, R601) -/

/-- The registers of the measurement slots: the words of each and its count. -/
def isMeasurement (off : Nat) : Prop := ∃ j, j < 8 ∧ ((∃ w, w < 12 ∧ off = Reg.secMs j w) ∨ off = Reg.secMsCnt j)

theorem isMeasurement_secMs {j w : Nat} (hj : j < 8) (hw : w < 12) : isMeasurement (Reg.secMs j w) :=
  ⟨j, hj, .inl ⟨w, hw, rfl⟩⟩

theorem isMeasurement_secMsCnt {j : Nat} (hj : j < 8) : isMeasurement (Reg.secMsCnt j) := ⟨j, hj, .inr rfl⟩

/-- The registers of the slots stand apart from those below them and from the blocks above. -/
theorem isMeasurement_bounds {off : Nat} (h : isMeasurement off) : 0x400100 ≤ off ∧ off < 0x400300 := by
  obtain ⟨j, hj, ⟨w, hw, rfl⟩ | rfl⟩ := h
  · simp only [Reg.secMs]; omega
  · simp only [Reg.secMsCnt]; omega

/-- Every slot of `x` shows 48 zero bytes, and every count 0. -/
def Half.ShowsZeroSlots (x : Half) : Prop := ∀ j, j < 8 → x.msBytes j = zeros 48 ∧ x.reg (Reg.secMsCnt j) = 0#32

/-- The bytes of a slot are those of its words. -/
theorem msBytes_of_regs {x : Half} {j : Nat} {r : Nat → Word} (h : ∀ w, w < 12 → x.reg (Reg.secMs j w) = r w) :
    x.msBytes j = (List.range 12).flatMap (fun w => leBytes 4 (r w).toNat) := by
  have hwords : ∀ w ∈ List.range 12, leBytes 4 (x.reg (Reg.secMs j w)).toNat = leBytes 4 (r w).toNat := fun w hw => by
    rw [h w (List.mem_range.mp hw)]
  rw [Half.msBytes, List.flatMap_def, List.flatMap_def, List.map_congr_left hwords]

theorem msBytes_of_regs_zero {x : Half} {j : Nat} (h : ∀ w, w < 12 → x.reg (Reg.secMs j w) = 0#32) :
    x.msBytes j = zeros 48 :=
  (msBytes_of_regs (r := fun _ => 0#32) h).trans rfl

theorem showsZeroSlots_of_regs_zero {x : Half} (h : ∀ off, isMeasurement off → x.reg off = 0#32) : x.ShowsZeroSlots :=
  fun _ hj => ⟨msBytes_of_regs_zero fun _ hw => h _ (isMeasurement_secMs hj hw), h _ (isMeasurement_secMsCnt hj)⟩

theorem msBytes_congr {x y : Half} {j : Nat} (h : ∀ w, w < 12 → y.reg (Reg.secMs j w) = x.reg (Reg.secMs j w)) :
    y.msBytes j = x.msBytes j :=
  msBytes_of_regs h

theorem leNat_zeros (n : Nat) : leNat (zeros n) = 0 := by
  induction n with
  | zero => rfl
  | succ n ih =>
    rw [zeros] at ih
    rw [zeros, List.replicate_succ, leNat, ih]
    rfl

/-- Every word of a run of zero bytes is 0. -/
theorem leNat_take_drop_zeros (n i m : Nat) : leNat (((zeros n).drop i).take m) = 0 := by
  rw [zeros, List.drop_replicate, List.take_replicate]
  exact leNat_zeros _

theorem reg_setMs_zeros_of_zero {x : Half} {off : Nat} (k : Nat) (h : x.reg off = 0#32) :
    (x.setMs k (zeros 48)).reg off = 0#32 :=
  List.foldlRecOn (motive := fun y : Half => y.reg off = 0#32) _ _ h fun _ hy _ _ =>
    reg_setReg_of_imp (fun _ => hy) fun _ => by rw [leNat_take_drop_zeros]

theorem reg_setMs_zeros (x : Half) {k w : Nat} (hw : w < 12) : (x.setMs k (zeros 48)).reg (Reg.secMs k w) = 0#32 :=
  foldl_establishes (P := fun y : Half => y.reg (Reg.secMs k w) = 0#32) (List.mem_range.mpr hw)
    (fun y => by rw [reg_setReg, leNat_take_drop_zeros])
    (fun y hy c _ => reg_setReg_of_imp (fun _ => hy) fun _ => by rw [leNat_take_drop_zeros]) x

/-- Zeroing the slots leaves 0 in each register of each of them (R580). -/
theorem zeroMs_reg (x : Half) {off : Nat} (h : isMeasurement off) : x.zeroMs.reg off = 0#32 := by
  obtain ⟨j, hj, hoff⟩ := h
  refine foldl_establishes (P := fun y : Half => y.reg off = 0#32) (List.mem_range.mpr hj) (fun y => ?_)
    (fun y hy k _ => reg_setReg_of_imp (fun _ => reg_setMs_zeros_of_zero k hy) fun _ => rfl) x
  refine reg_setReg_of_imp (fun hcnt => ?_) fun _ => rfl
  obtain ⟨w, hw, rfl⟩ | rfl := hoff
  · exact reg_setMs_zeros y hw
  · exact absurd rfl hcnt

/-- After TAMPER no digest extends a slot (R580). -/
theorem extendMs_of_tampered {x : Half} (h : x.sec.tampered = true) (j : Nat) (d : Bytes) : x.extendMs j d = x := if_pos h

/-! ## TAMPER (R580, R598) -/

theorem wipe_reg_ne (x : Half) {off : Nat} (h : off ≠ Reg.secStatus) : x.wipe.reg off = x.reg off := reg_setRBit_ne _ _ _ h

theorem reg_withSec (x : Half) (t : Sec) (off : Nat) : ({ x with sec := t } : Half).reg off = x.reg off := rfl

/-- The registers of the tamper response: the slots are zeroed, then secure memory is wiped. -/
theorem tamper_reg (x : Half) (off : Nat) :
    x.tamper.reg off = (((x.assertSrc 7).voidNonce.closeDebug.hostEnable false).zeroMs.wipe).reg off := reg_withSec ..

theorem tamper_showsZeroSlots (x : Half) : x.tamper.ShowsZeroSlots :=
  showsZeroSlots_of_regs_zero fun off h => by
    have hne : off ≠ Reg.secStatus := by
      have := isMeasurement_bounds h
      simp only [Reg.secStatus]
      omega
    rw [tamper_reg, wipe_reg_ne _ hne, zeroMs_reg _ h]

/-- An enabled sensor among those that trip makes the tamper response. -/
theorem trip_eq_tamper {x : Half} {l : List Sensor} (h : ∃ i ∈ l, x.rbit Reg.secTamperCfg (sensorBit i) = true) :
    ∃ y : Half, x.trip l = y.tamper := by
  obtain ⟨i, hi, hen⟩ := h
  have hsome : (l.filter (fun i => x.rbit Reg.secTamperCfg (sensorBit i))).isEmpty = false :=
    List.isEmpty_eq_false_iff.mpr (List.ne_nil_of_mem (List.mem_filter.mpr ⟨hi, hen⟩))
  exact ⟨_, if_neg (ne_true_of_eq_false hsome)⟩

/-- Sensors of one half reach that half alone. -/
theorem exec_tamperTrip_of_no_lid {h : HalfId} {sensors : List Sensor} {s : State} (hl : .lid ∉ sensors) :
    exec (.tamperTrip h sensors) s = .next (s.upd h (fun x => x.trip sensors)) :=
  congrArg Host.Outcome.next (if_neg (by simpa using hl))

/-! ## A reset of reach Module (R558) -/

theorem exec_modRst (s : State) : exec .modRst s = .next (s.both (fun x => x.assertModule 2)) := rfl

theorem regReset_of_isMeasurement {off : Nat} (h : isMeasurement off) : regReset off = 0#32 := by
  have hwords : ∀ j, j < 8 → ∀ w, w < 12 → regReset (Reg.secMs j w) = 0#32 := by decide
  have hcounts : ∀ j, j < 8 → regReset (Reg.secMsCnt j) = 0#32 := by decide
  obtain ⟨j, hj, ⟨w, hw, rfl⟩ | rfl⟩ := h
  · exact hwords j hj w hw
  · exact hcounts j hj

theorem alwaysOn_of_isMeasurement {off : Nat} (h : isMeasurement off) : alwaysOn off = false := by
  have := isMeasurement_bounds h
  simp only [alwaysOn, Bool.or_eq_false_iff, beq_eq_false_iff_ne, Reg.rstCause, Reg.lnkTmModid, Reg.pwrStatus, Reg.pwrFeed,
    Reg.secTamperStat, Reg.secLockout]
  omega

/-- A register outside the always-on domain takes its reset value. -/
theorem resetAll_reg (x : Half) {off : Nat} (h : alwaysOn off = false) : x.resetAll.reg off = regReset off := by
  have hne : off ≠ Reg.pwrStatus := by
    rintro rfl
    simp [alwaysOn] at h
  refine (reg_setReg_ne _ _ hne).trans ?_
  exact (sget_keepKeys ..).trans (if_neg (ne_true_of_eq_false h))

theorem assertModule_showsZeroSlots (x : Half) (i : Nat) : (x.assertModule i).ShowsZeroSlots :=
  showsZeroSlots_of_regs_zero fun off h => by
    have hne : off ≠ Reg.lnkTmModid := by
      have := isMeasurement_bounds h
      simp only [Reg.lnkTmModid]
      omega
    calc (x.assertModule i).reg off
      _ = (x.assertHalf i).reg off := reg_setReg_ne _ _ hne
      _ = regReset off := resetAll_reg _ (alwaysOn_of_isMeasurement h)
      _ = 0#32 := regReset_of_isMeasurement h

theorem assertModule_tampered (x : Half) (i : Nat) : (x.assertModule i).sec.tampered = false := rfl

/-! ## The measurement commands (R579, R585) -/

theorem exec_extend (h : HalfId) (k : BitVec 2) (s : State) : exec (.extend h k) s =
    .next (s.upd h (fun x => x.mbx k.toNat 0x43 3 (fun y => (y.extendMs 7 (y.argBytes k.toNat 0 12)).mbxDone k.toNat 0 []))) :=
  rfl

/-- What GET_MEAS answers of a slot: its words, then its count. -/
def Half.measRsp (x : Half) (i : Nat) : List (Nat × Nat) :=
  rspWords (x.msBytes i) ++ [(12, (x.reg (Reg.secMsCnt i)).toNat)]

theorem exec_getMeas (h : HalfId) (k : BitVec 2) (s : State) : exec (.getMeas h k) s =
    .next (s.upd h (fun x => x.mbx k.toNat 0x40 3 (fun y =>
      if y.arg k.toNat 0 < 8 then y.mbxDone k.toNat 0 (y.measRsp (y.arg k.toNat 0)) else y.mbxDone k.toNat 0x41 []))) := rfl

/-- A report of a zero slot is thirteen words of 0. -/
theorem measRsp_of_zero {x : Half} {i : Nat} (hb : x.msBytes i = zeros 48) (hc : x.reg (Reg.secMsCnt i) = 0#32) :
    x.measRsp i = (List.range 13).map (fun w => (w, 0)) := by
  rw [Half.measRsp, hb, hc]
  decide

end Sys2Proof.Machine

namespace Sys2Proof.Claims

open Sys2Proof.Machine

theorem extend_after_tamper {h : HalfId} {k : BitVec 2} {s : State} (ht : (s.half h).sec.tampered = true)
    (hturn : Turn (s.half h) k.toNat 0x43) :
    OnHalf (.extend h k) h s (fun y => Ended k.toNat 0 y ∧ y.sec = (s.half h).sec ∧
      ∀ j, j < 8 → y.msBytes j = (s.half h).msBytes j ∧ y.reg (Reg.secMsCnt j) = (s.half h).reg (Reg.secMsCnt j)) := by
  have hk := lt_three_of_turn hturn
  refine onHalf_of_turn (exec_extend ..) hturn hk ?_
  rw [extendMs_of_tampered ht]
  have hreg : ∀ off, isMeasurement off → ((s.half h).mbxDone k.toNat 0 []).reg off = (s.half h).reg off := fun off hoff =>
    mbxDone_nil_reg _ _ (by
      have := isMeasurement_bounds hoff
      simp only [Reg.stwMbxStat]
      omega)
  exact ⟨mbxDone_ended _ _ _ (by omega), mbxDone_sec .., fun j hj =>
    ⟨msBytes_congr fun w hw => hreg _ (isMeasurement_secMs hj hw), hreg _ (isMeasurement_secMsCnt hj)⟩⟩

theorem getMeas_of_zero_slot {h : HalfId} {k : BitVec 2} {s : State} (hturn : Turn (s.half h) k.toNat 0x40)
    (hi : (s.half h).arg k.toNat 0 < 8) (hb : (s.half h).msBytes ((s.half h).arg k.toNat 0) = zeros 48)
    (hc : (s.half h).reg (Reg.secMsCnt ((s.half h).arg k.toNat 0)) = 0#32) :
    OnHalf (.getMeas h k) h s (fun y => ∀ w, w < 13 → y.reg (Reg.stwMbxRsp k.toNat w) = 0#32) := by
  refine onHalf_of_turn (exec_getMeas ..) hturn (lt_three_of_turn hturn) fun w hw => ?_
  rw [if_pos hi, measRsp_of_zero hb hc]
  exact mbxDone_rsp_zero _ _ (List.mem_map.mpr ⟨w, List.mem_range.mpr hw, rfl⟩) (by simp)

/-- Settles O31: the tamper response zeroes every slot and its count and keeps digests out until a reset of the half, whose
register reset values are those zeros again. -/
theorem tamperZeroesTheSlotsUntilAReset : Obligations.TamperZeroesTheSlotsUntilAReset := by
  intro h k sensors s
  refine ⟨fun hlid hen => ?_, fun ht => extendMs_of_tampered ht, extend_after_tamper, getMeas_of_zero_slot, ?_⟩
  · obtain ⟨y, hy⟩ := trip_eq_tamper hen
    refine onHalf_of_upd (exec_tamperTrip_of_no_lid hlid) ?_
    rw [hy]
    exact ⟨rfl, tamper_showsZeroSlots y⟩
  · refine ⟨_, exec_modRst s, both_pending .., fun h => ?_⟩
    rw [both_half]
    exact ⟨assertModule_tampered .., assertModule_showsZeroSlots _ _⟩

end Sys2Proof.Claims

/-!
A password that is tried (R594, R595): what UNLOCK_PWD comes to where the password path is open, and what of the security state
it does not leave as it was.
-/

namespace Sys2Proof.Machine

open Sys2Proof.Claims

/-! ## What keeps the security state -/

theorem setMs_sec (x : Half) (k : Nat) (bs : Bytes) : (x.setMs k bs).sec = x.sec :=
  List.foldlRecOn (motive := fun y : Half => y.sec = x.sec) _ _ rfl fun _ hy _ _ => hy

theorem extendMs_sec (x : Half) (k : Nat) (d : Bytes) : (x.extendMs k d).sec = x.sec := by
  unfold Half.extendMs
  split
  · rfl
  · rw [setReg_sec, setMs_sec]

theorem openDebug_sec (x : Half) (scope path : Nat) : (x.openDebug scope path).sec = x.sec := by
  rw [Half.openDebug, Half.secRecord, extendMs_sec, setRFld_sec, setRBit_sec]

/-- Each setting of FAILS drops the part of a second that a wait has run. -/
theorem setFails_sec (x : Half) (n wait : Nat) : (x.setFails n wait).sec = { x.sec with waitT := 0 } := by
  simp only [Half.setFails, Half.flashWrite, setRFld_sec, setRBit_sec]

theorem countFail_sec (x : Half) : x.countFail.sec = { x.sec with waitT := 0 } := setFails_sec ..

/-! ## UNLOCK_PWD (R594) -/

/-- The steward reads the `n` bytes of a password at `a` and judges them by the owner's record `o` (R594). -/
def Half.tryPassword (x : Half) (k : Nat) (o : Bytes) (a n : Nat) : Half :=
  let (p, y) := x.stwGet a n
  if sha384 (y.serial ++ p) = (o.drop 96).take 48 then
    ((y.setFails 0 0).openDebug (y.arg k 2 &&& leAt o 148 4 % 16) 2).mbxDone k 0 []
  else y.countFail.mbxDone k 0x45 []

/-- UNLOCK_PWD in OWNED, with the password path open and a password of an allowed length, comes to trying it. -/
theorem exec_unlockPwd_of_open {h : HalfId} {k : BitVec 2} {s : State} {o : Bytes} {a : Nat} (hk : k.toNat < 1)
    (hturn : Turn (s.half h) k.toNat 0x4D) (hlcs : (s.half h).lcs = 2) (ho : (s.half h).ownerRec = some o)
    (ha : sp6 ((s.half h).arg k.toNat 0) ((s.half h).arg k.toNat 1) = some a) (hlo : 8 ≤ (s.half h).arg k.toNat 1)
    (hhi : (s.half h).arg k.toNat 1 ≤ 64) (hlock : (s.half h).locked = false) (hfails : (s.half h).fails < 32)
    (hpwd : natBit (leAt o 144 4) 0 = false) :
    exec (.unlockPwd h k) s =
      .next (s.upd h (fun x => x.tryPassword k.toNat o a (x.arg k.toNat 1))) := by
  have hlen : ¬ ((s.half h).arg k.toNat 1 < 8 ∨ 64 < (s.half h).arg k.toNat 1) := by omega
  have hpath : ((s.half h).locked || decide (32 ≤ (s.half h).fails) || natBit (leAt o 144 4) 0) = false := by
    simp [hlock, hpwd, hfails]
  refine congrArg Host.Outcome.next (congrArg (s.setHalf h) ((mbx_of_turn _ hturn hk).trans ?_))
  simp only [ne_eq, hlcs, not_true_eq_false, if_false, ho, ha, hlen, hpath, Bool.false_eq_true]
  rfl

/-- A password that is tried leaves no part of a second of a lockout wait, whether it matches or not. -/
theorem tryPassword_waitT (x : Half) (k : Nat) (o : Bytes) (a n : Nat) : (x.tryPassword k o a n).sec.waitT = 0 := by
  unfold Half.tryPassword
  dsimp only
  split
  · rw [mbxDone_sec, openDebug_sec, setFails_sec]
  · rw [mbxDone_sec, countFail_sec]

/-- Half 0 in OWNED with an owner record of zeros, after three failures: LOCKOUT_EXPIRY has ended the wait within a second of
it, and an UNLOCK_PWD of mailbox 0, with the 8 bytes at the start of SP6, has its turn. -/
def waitEnded : State :=
  State.reset.upd .h0 fun x =>
    { x with
      regs := [(Reg.stwMbxCtrl 0, 0x4D#32), (Reg.stwMbxStat 0, 1#32), (Reg.stwMbxArg 0 1, 8#32), (Reg.secLockout, 3#32)]
      sys := { x.sys with mbx := [0] }
      sec := { x.sec with otp := { x.sec.otp with lcs := 2, owners := [zeros 160], owner := some 0 }, waitT := 1 } }

end Sys2Proof.Machine

namespace Sys2Proof.Claims

open Sys2Proof.Machine

theorem onHalf_imp {c : Instr} {h : HalfId} {s : State} {P Q : Half → Prop} (hP : OnHalf c h s P) (hPQ : ∀ y, P y → Q y) :
    OnHalf c h s Q := by
  obtain ⟨t, ht, hq, hother, hy⟩ := hP
  exact ⟨t, ht, hq, hother, hPQ _ hy⟩

/-- Refutes O27: a password that is tried sets FAILS, and with it drops the part of a second that a lockout wait has run. Where
LOCKOUT_EXPIRY has ended a wait within a second, that part is left over, so the security state is not as it was, whether the
password matches or not. -/
theorem not_passwordsOpenDebugByTheirDigest : ¬ Obligations.PasswordsOpenDebugByTheirDigest := by
  intro hall
  have hturn : Turn waitEnded.h0 0 0x4D := by decide
  have hlcs : waitEnded.h0.lcs = 2 := rfl
  have howner : waitEnded.h0.ownerRec = some (zeros 160) := rfl
  have hsp6 : sp6 (waitEnded.h0.arg 0 0) (waitEnded.h0.arg 0 1) = some (spAddr 6) := by decide
  have hlo : 8 ≤ waitEnded.h0.arg 0 1 := by decide
  have hhi : waitEnded.h0.arg 0 1 ≤ 64 := by decide
  have hlock : waitEnded.h0.locked = false := by decide
  have hfails : waitEnded.h0.fails < 32 := by decide
  have hpwd : natBit (leAt (zeros 160) 144 4) 0 = false := by decide
  obtain ⟨-, hmatch, hmiss⟩ :=
    hall .h0 0#2 (zeros 160) (spAddr 6) waitEnded rfl hturn hlcs howner hsp6 hlo hhi hlock hfails
  have hkeeps : OnHalf (.unlockPwd .h0 0#2) .h0 waitEnded (fun y => y.sec = waitEnded.h0.sec) :=
    (Classical.em _).elim (fun hd => onHalf_imp (hmatch hpwd hd) fun _ ⟨_, _, _, _, hsec⟩ => hsec)
      (fun hd => onHalf_imp (hmiss hpwd hd) fun _ ⟨_, _, _, _, hsec⟩ => hsec)
  obtain ⟨t, ht, -, -, hsec⟩ := hkeeps
  have hexec := exec_unlockPwd_of_open (h := .h0) (k := 0#2) (by decide) hturn hlcs howner hsp6 hlo hhi hlock hfails hpwd
  obtain rfl := Host.Outcome.next.inj (hexec.symm.trans ht)
  have hleft : waitEnded.h0.sec.waitT = 0 := by
    rw [← hsec, upd_half]
    exact tryPassword_waitT ..
  exact absurd hleft (by decide)

end Sys2Proof.Claims
